-- ==== Sys2Proof/Word.lean ====
section
/-! DEFINITION. The words of the relaymux control core: port words, channel masks and text bytes. -/

namespace Sys2Proof

/-- A word of the command port or of the response port: 32 bits, bit 0 least significant (R42). -/
abbrev Word := BitVec 32

/-- A byte of text, or an 8-bit channel field (R42, R60). -/
abbrev Byte := BitVec 8

/-- A channel mask: bit `c - 1` is channel `c` (R19). The spec's masks are N bits wide with N at most
32; here a mask is 32 bits wide and its bits of N and above are 0 (log entry 4). -/
abbrev Mask := BitVec 32

end Sys2Proof
end

