-- ==== Sys2Proof/Config.lean ====
section
/-! DEFINITION. What is fixed outside the block: the implementation parameters (R6) and the inputs the
environment drives (R17), with the free value that stands for every input no list gives. -/

namespace Sys2Proof

/-- `CYCLE_POLICY` (R6): the policy of the set that a Cycle press performs. -/
inductive Policy where
  | bbm
  | mbb
deriving DecidableEq, Repr

/-- The implementation parameters of R6. They are arguments of the model: State carries one value of
this type and no step changes it (R30, log entry 2). -/
structure Config where
  /-- `N`, the number of relay channels. -/
  n : Nat
  /-- `TICK_PERIOD`, here in microseconds: no rule depends on it (R16, log entry 9). -/
  tickPeriod : Nat
  /-- `W_DEB`, the debounce window in ticks. -/
  wDeb : Nat
  /-- `T_OP`, the operate settle delay in ticks. -/
  tOp : Nat
  /-- `T_REL`, the release settle delay in ticks. -/
  tRel : Nat
  /-- `QMAX`, the most flags one Close-Query may return. -/
  qMax : Nat
  /-- `CYCLE_NEXT` as a finite table from relay states to targets. A relay state that no row lists has
  the target that R118's default gives it, so the empty table is that default (log entry 3). -/
  cycleTable : List (Mask × Mask)
  /-- `CYCLE_POLICY`. -/
  cyclePolicy : Policy
  /-- `IDENT_BYTES`, the device identity string. -/
  identBytes : List Byte
deriving DecidableEq, Repr

/-- The defaults of R6, with R118's default `CYCLE_NEXT` and no identity bytes: configuration DEF of
`95_test_vectors.md`. -/
def Config.reference : Config where
  n := 8
  tickPeriod := 1000
  wDeb := 100
  tOp := 10
  tRel := 10
  qMax := 32
  cycleTable := []
  cyclePolicy := .bbm
  identBytes := []

/-- The input signals of one step (R17). -/
structure Inputs where
  rst : Bool
  tick : Bool
  /-- Bit 0 is Cycle, bit 1 is Clear (R18). -/
  btnRaw : BitVec 2
  cmdValid : Bool
  cmdData : Word
  cmdLast : Bool
  cmdErr : Bool
  rspReady : Bool
deriving DecidableEq, Repr, Inhabited

/-- FREE VALUE (log entry 1): what the environment drives in a step that State's list of inputs does
not cover. The environment's behaviour is free (R14, R146). -/
opaque Config.freeInputs : Nat → Inputs

end Sys2Proof
end

