-- ==== Sys2Proof/Syntax.lean ====
section
/-! DEFINITION. The commands of the block: the nine headers of the opcode table (R58), the argument
words that follow them (R60, R61) and the packet they make (R55). -/

namespace Sys2Proof

/-- The nine commands of R58, one constructor for each row of `spec/opcode_table.json`. A row fixes all
32 bits of the header word, so a command carries no field: its operands are the argument words that
follow on the command port (R55, R56, log entry 7). -/
inductive Instr where
  /-- `OPEN` (R103). -/
  | opn
  /-- `CLOSE` (R104). -/
  | cls
  /-- `CLOSE_Q` (R105). -/
  | clsQ
  /-- `OPEN_ALL` (R106). -/
  | opnAll
  /-- `STATE_Q` (R107). -/
  | stateQ
  /-- `SET` (R108). -/
  | set
  /-- `SET_MBB` (R109). -/
  | setMbb
  /-- `GET_Q` (R110). -/
  | getQ
  /-- `IDENT` (R111). -/
  | ident
deriving DecidableEq, Repr

/-- The argument classes of R59. -/
inductive ArgClass where
  | list
  | num
  | none
deriving DecidableEq, Repr

/-- The error codes of R66, the names by which a word or a command is rejected. -/
inductive ErrCode where
  | opcode
  | missing
  | malformed
  | channel
  | extra
  | order
  | tooLong
deriving DecidableEq, Repr

/-- An element of a channel list (R60): a single channel or an inclusive range. The fields are the 8-bit
fields of the word, so a channel outside [1, N] can be written. -/
inductive Entry where
  | single (ch : Byte)
  | range (first last : Byte)
deriving DecidableEq, Repr

/-- An argument of a command: a channel-list entry (R60), a numeric word (R61), or a word that a
command of class NONE ignores, with its `cmd_err` mark (R59). -/
inductive Arg where
  | entry (e : Entry)
  | number (v : Word)
  | ignored (w : Word) (marked : Bool)
deriving DecidableEq, Repr

/-- A command with its arguments. -/
structure Command where
  instr : Instr
  args : List Arg
deriving DecidableEq, Repr

/-- A word offered on the command port, with `cmd_last` and `cmd_err` (R55). -/
structure PortWord where
  data : Word
  last : Bool
  err : Bool
deriving DecidableEq, Repr

end Sys2Proof
end

