-- ==== Sys2Proof/Decode.lean ====
section
/-! DEFINITION. The decoder of header and argument words (R57 to R62), total and rejecting by the error
code of R66, and after it the encoder. -/

namespace Sys2Proof

/-- The opcode of R58. -/
def Instr.opcode : Instr → BitVec 4
  | .opn => 0x1#4
  | .cls => 0x2#4
  | .clsQ => 0x3#4
  | .opnAll => 0x4#4
  | .stateQ => 0x5#4
  | .set => 0x6#4
  | .setMbb => 0x7#4
  | .getQ => 0x8#4
  | .ident => 0x9#4

/-- The argument class of each command (R58, R59). -/
def Instr.argClass : Instr → ArgClass
  | .opn => .list
  | .cls => .list
  | .clsQ => .list
  | .opnAll => .none
  | .stateQ => .none
  | .set => .num
  | .setMbb => .num
  | .getQ => .none
  | .ident => .none

/-- The command an opcode is assigned to (R58); opcodes 0x0 and 0xA to 0xF are reserved (R62). -/
def instrOfOpcode (op : BitVec 4) : Option Instr :=
  match op.toNat with
  | 1 => some .opn
  | 2 => some .cls
  | 3 => some .clsQ
  | 4 => some .opnAll
  | 5 => some .stateQ
  | 6 => some .set
  | 7 => some .setMbb
  | 8 => some .getQ
  | 9 => some .ident
  | _ => none

/-- `w[3:0]`, the opcode field of a header word (R57). -/
def headerOpcode (w : Word) : BitVec 4 :=
  w.extractLsb' 0 4

/-- `w[31:4]`, the reserved field of a header word (R57). -/
def headerRsv (w : Word) : BitVec 28 :=
  w.extractLsb' 4 28

/-- A header word sent with `cmd_err = marked`. It is legal when its reserved field is 0, its opcode is
assigned and it is not marked (R57); any other header is rejected with E_OPCODE (R62, R96). -/
def decodeHeader (w : Word) (marked : Bool) : Except ErrCode Instr :=
  if marked then .error .opcode
  else if headerRsv w ≠ 0#28 then .error .opcode
  else
    match instrOfOpcode (headerOpcode w) with
    | some i => .ok i
    | none => .error .opcode

/-- The fields of an entry word (R60). -/
def entryKind (w : Word) : BitVec 2 := w.extractLsb' 30 2
def entryRsv (w : Word) : BitVec 14 := w.extractLsb' 16 14
def entryFrom (w : Word) : Byte := w.extractLsb' 8 8
def entryCh (w : Word) : Byte := w.extractLsb' 0 8

/-- An entry word sent with `cmd_err = marked`: the first three tests of R98, which reject a marked word
and the reserved entry encodings of R62 with E_MALFORMED. -/
def decodeEntry (w : Word) (marked : Bool) : Except ErrCode Entry :=
  if marked then .error .malformed
  else if entryKind w = 2#2 ∨ entryKind w = 3#2 ∨ entryRsv w ≠ 0#14 then .error .malformed
  else if entryKind w = 0#2 then
    if entryFrom w ≠ 0#8 then .error .malformed else .ok (.single (entryCh w))
  else .ok (.range (entryFrom w) (entryCh w))

/-- `lo` of R98, the first channel of an entry. -/
def Entry.lo : Entry → Nat
  | .single ch => ch.toNat
  | .range first _ => first.toNat

/-- `hi` of R98, the last channel of an entry. -/
def Entry.hi : Entry → Nat
  | .single ch => ch.toNat
  | .range _ last => last.toNat

/-- A numeric word sent with `cmd_err = marked` (R61): no bit is reserved. -/
def decodeNumber (w : Word) (marked : Bool) : Except ErrCode Word :=
  if marked then .error .malformed else .ok w

/-- One argument word of a command of the class. -/
def decodeArg (cl : ArgClass) (p : PortWord) : Except ErrCode Arg :=
  match cl with
  | .list => (decodeEntry p.data p.err).map .entry
  | .num => (decodeNumber p.data p.err).map .number
  | .none => .ok (.ignored p.data p.err)

/-- The argument words of a command of the class, in order: the first word rejected rejects all. -/
def decodeArgs (cl : ArgClass) : List PortWord → Except ErrCode (List Arg)
  | [] => .ok []
  | p :: ps =>
    match decodeArg cl p with
    | .error c => .error c
    | .ok a =>
      match decodeArgs cl ps with
      | .error c => .error c
      | .ok l => .ok (a :: l)

/-- How many arguments the class takes (R59), with the error of a wrong number: E_MISSING for none where
one is needed, E_EXTRA for a second numeric word (R66). -/
def checkCount (cl : ArgClass) (k : Nat) : Except ErrCode Unit :=
  match cl with
  | .none => .ok ()
  | .list => if k = 0 then .error .missing else .ok ()
  | .num => if k = 0 then .error .missing else if 1 < k then .error .extra else .ok ()

/-- A packet ends at the word with `last` and nowhere before it (R55, R56). -/
def framed : List PortWord → Bool
  | [] => false
  | [p] => p.last
  | p :: ps => !p.last && framed ps

/-- The decoder of a packet: header, then argument words of the header's class. It is total, and it
rejects by the name of an error code; a list of words that is no packet is rejected as E_OPCODE. The
tests that need N and QMAX (E_CHANNEL, E_ORDER, E_TOO_LONG) are the dispatcher's, Operands.lean. -/
def decodeCommand (ps : List PortWord) : Except ErrCode Command :=
  if !framed ps then .error .opcode
  else
    match ps with
    | [] => .error .opcode
    | h :: rest =>
      match decodeHeader h.data h.err with
      | .error c => .error c
      | .ok i =>
        match decodeArgs i.argClass rest with
        | .error c => .error c
        | .ok args =>
          match checkCount i.argClass args.length with
          | .error c => .error c
          | .ok () => .ok ⟨i, args⟩

/-! The encoder -/

/-- The header word of a command (R57, R58). -/
def encodeHeader (i : Instr) : Word :=
  i.opcode.setWidth 32

/-- The word of an entry (R60). -/
def encodeEntry : Entry → Word
  | .single ch => 0#2 ++ 0#14 ++ 0#8 ++ ch
  | .range first last => 1#2 ++ 0#14 ++ first ++ last

/-- The word of an argument and its `cmd_err` mark. -/
def encodeArg : Arg → Word × Bool
  | .entry e => (encodeEntry e, false)
  | .number v => (v, false)
  | .ignored w marked => (w, marked)

/-- Words with their marks as a packet: `cmd_last` on the last word only (R55). -/
def packet : List (Word × Bool) → List PortWord
  | [] => []
  | [(w, e)] => [⟨w, true, e⟩]
  | (w, e) :: rest => ⟨w, false, e⟩ :: packet rest

/-- The packet of a command (R55, R67). -/
def encodeCommand (c : Command) : List PortWord :=
  packet ((encodeHeader c.instr, false) :: c.args.map encodeArg)

/-- The words of an instruction that the opcode table gives: its header word (R58). -/
def encode (i : Instr) : List Word :=
  [encodeHeader i]

/-! The host's view of the decoder -/

/-- The 32-bit words of a number whose bit 0 is bit 0 of the first word, `nbits` bits long. -/
def wordsOf (nbits w : Nat) : List Word :=
  (List.range ((nbits + 31) / 32)).map (fun k => BitVec.ofNat 32 ((w % 2 ^ nbits) / 2 ^ (32 * k)))

/-- The packet of the instruction whose bits are `w`: its words in order, the first one the header.
Where the table gives a LIST or NUM command no bits for its operand words, one operand word of zeros
follows, since such a command takes at least one (R59, log entry 8). -/
def tablePacket (nbits w : Nat) : List PortWord :=
  match wordsOf nbits w with
  | [] => []
  | [h] =>
    match decodeHeader h false with
    | .error _ => packet [(h, false)]
    | .ok i =>
      match i.argClass with
      | .none => packet [(h, false)]
      | _ => packet [(h, false), (0#32, false)]
  | ws => packet (ws.map (fun x => (x, false)))

/-- The instruction the decoder reads from the instruction whose bits are `w`. -/
def decodeTableWord (nbits w : Nat) : Option Instr :=
  match decodeCommand (tablePacket nbits w) with
  | .ok c => some c.instr
  | .error _ => none

end Sys2Proof
end

