-- ==== Sys2Proof/Machine/State.lean ====
section
/-! DEFINITION. The state of the block (R20 to R29), the reasons a step can stop, and the state after
reset (R140). -/

namespace Sys2Proof.Machine

/-- `seq` (R24): whether the relay sequencer is in a phase. -/
inductive Seq where
  | idle
  | busy
deriving DecidableEq, Repr

/-- The kind of a phase write (R26, R73). -/
inductive Kind where
  | opn
  | cls
deriving DecidableEq, Repr

/-- `ctl` (R27): waiting for work, receiving argument words, waiting for the sequencer for a command,
waiting for it for a manual action, offering a response. -/
inductive Ctl where
  | idle
  | args
  | seq
  | man
  | rsp
deriving DecidableEq, Repr

/-- The argument of a sequence start (R74). -/
inductive SeqSpec where
  | opn (m : Mask)
  | cls (m : Mask)
  | setBbm (t : Mask)
  | setMbb (t : Mask)
deriving DecidableEq, Repr

/-- The state of the block. The first twenty fields are the registers of R20 to R29; the last three are
the model's own: the parameters (R6, log entry 2) and the environment's inputs (log entry 1). -/
structure State where
  /-- The closed channels (R20). -/
  relay : Mask
  /-- The tick counter (R21). -/
  now : BitVec 32
  /-- The tick of the last asserted sample (R22). -/
  last : BitVec 32
  /-- The pending button events, bit 0 Cycle, bit 1 Clear (R23). -/
  acc : BitVec 2
  seq : Seq
  /-- The ticks still to wait in the current phase (R25). -/
  dly : BitVec 16
  /-- `p2_valid`, `p2_kind`, `p2_mask`: the second phase of a set, while the first one runs (R26). -/
  p2Valid : Bool
  p2Kind : Kind
  p2Mask : Mask
  ctl : Ctl
  /-- The opcode of the current command (R28). -/
  op : BitVec 4
  /-- The first error code of the current command, 0 if none (R28). -/
  err : BitVec 8
  /-- The number of argument words received, saturating (R28). -/
  nargs : BitVec 16
  /-- The union of the channel-list entries received (R28). -/
  amask : Mask
  /-- The numeric argument (R28). -/
  aval : Word
  /-- The Close-Query flags collected, in list order (R28). -/
  qflags : List Bool
  /-- The response being offered (R28). -/
  rbuf : List Word
  /-- The index in `rbuf` of the word being offered (R28). -/
  ridx : BitVec 16
  /-- The last event set the manual path consumed (R29). -/
  mev : BitVec 2
  /-- Whether the manual path consumed an event set in the previous step (R29). -/
  mevStb : Bool
  /-- MODEL: the parameters, which no step changes (R30, log entry 2). -/
  cfg : Config
  /-- MODEL: what the environment drives in the coming steps, the next step first (log entry 1). -/
  inputs : List Inputs
  /-- MODEL: how many steps took their inputs from `Config.freeInputs` (log entry 1). -/
  drawn : Nat
deriving DecidableEq, Repr

/-- Why a step stops with a fault. No state reachable from reset raises one. -/
inductive Fault where
  /-- A sequence start while `seq = S_BUSY`. Raised by `State.rbStart`. R74 asks for this fault: safe. -/
  | startWhileBusy
  /-- The state breaks an invariant of R120. Raised by `clockStep`. R120 and R131 ask for this fault:
  safe. -/
  | invariantBroken
  /-- A register holds what its width or bound does not let it hold: a mask with a bit of N or above,
  or `rbuf` longer than RBUF_MAX (R20, R28). Raised by `clockStep`; no hardware is in such a state:
  safe (log entry 4). -/
  | notAState
  /-- An argument word of a command whose opcode is reserved and whose `err` is 0, to which no rule
  gives a class. Raised by `State.illegalWord`; unreachable from reset: safe (log entry 6). -/
  | noSuchCommand
deriving DecidableEq, Repr

/-- Why a step is refused. -/
inductive Refusal where
  /-- The instruction has no meaning in the model yet. Raised by `exec` alone: safe. No arm raises it. -/
  | notModelled (mnemonic : String)
  /-- The configuration lies outside the ranges of R6. Raised by `clockStep`. R6 and R131 ask for this
  refusal: safe. -/
  | illegalConfig
deriving DecidableEq, Repr

/-- What a step or a meaning answers. -/
abbrev Result := Host.Outcome State Fault Refusal

/-- RESET_STATE (R140) of a block with the parameters `cfg`: every register at the value its rule gives.
The environment's inputs are not the block's and are given beside it. -/
def State.resetWith (cfg : Config) (inputs : List Inputs) (drawn : Nat) : State where
  relay := 0#32
  now := 0#32
  last := 0#32
  acc := 0#2
  seq := .idle
  dly := 0#16
  p2Valid := false
  p2Kind := .opn
  p2Mask := 0#32
  ctl := .idle
  op := 0#4
  err := 0#8
  nargs := 0#16
  amask := 0#32
  aval := 0#32
  qflags := []
  rbuf := []
  ridx := 0#16
  mev := 0#2
  mevStb := false
  cfg := cfg
  inputs := inputs
  drawn := drawn

/-- The machine right after reset (R140, R144), with the default parameters of R6 (log entry 2) and no
input given yet (log entry 1). -/
def State.reset : State :=
  State.resetWith Config.reference [] 0

end Sys2Proof.Machine
end

