-- ==== Sys2Proof/Machine/Params.lean ====
section
/-! DEFINITION. What the parameters determine: their legal ranges (R6), the derived constants (R7), the
channel masks (R11, R19) and CYCLE_NEXT (R118). -/

namespace Sys2Proof

/-- The legal ranges of R6. TICK_PERIOD, CYCLE_NEXT and CYCLE_POLICY have no illegal value. -/
abbrev Config.Legal (c : Config) : Prop :=
  (1 ≤ c.n ∧ c.n ≤ 32) ∧ c.wDeb ≤ 2 ^ 31 - 1 ∧ (1 ≤ c.tOp ∧ c.tOp ≤ 65535) ∧
    (1 ≤ c.tRel ∧ c.tRel ≤ 65535) ∧ (1 ≤ c.qMax ∧ c.qMax ≤ 65535) ∧ c.identBytes.length ≤ 255

/-- `VALID = 2^N - 1` (R7). -/
def Config.valid (c : Config) : Mask :=
  BitVec.ofNat 32 (2 ^ c.n - 1)

/-- `m & VALID` (R68). -/
def Config.cut (c : Config) (m : Mask) : Mask :=
  m &&& c.valid

/-- A channel is an integer in [1, N] (R19). -/
def Config.hasChannel (c : Config) (ch : Nat) : Bool :=
  1 ≤ ch && ch ≤ c.n

/-- `bit(c) = 1 << (c - 1)` (R7, R19). -/
def bit (ch : Nat) : Mask :=
  1#32 <<< (ch - 1)

/-- The mask of a set of channels (R11). -/
def maskOf : List Nat → Mask
  | [] => 0#32
  | c :: cs => bit c ||| maskOf cs

/-- The channels from `lo` to `hi` in ascending order (R98). -/
def channels (lo hi : Nat) : List Nat :=
  (List.range (hi + 1 - lo)).map (lo + ·)

/-- Whether channel `ch` is closed in the relay state `r` (R19, R20). -/
def closed (r : Mask) (ch : Nat) : Bool :=
  r.getLsbD (ch - 1)

/-- The closed channels of `r`, ascending (R107). -/
def closedChannels (c : Config) (r : Mask) : List Nat :=
  (channels 1 c.n).filter (closed r)

/-- The decimal digits of a channel without leading zeros, as ASCII codes (R107). A channel is at most
32, so it has one or two digits (R12). -/
def dec (ch : Nat) : List Byte :=
  if ch < 10 then [BitVec.ofNat 8 (0x30 + ch)]
  else [BitVec.ofNat 8 (0x30 + ch / 10), BitVec.ofNat 8 (0x30 + ch % 10)]

/-- The number of decimal digits of a channel (R7). -/
def digits (ch : Nat) : Nat :=
  if ch < 10 then 1 else 2

/-- `STRMAX` (R7), the length of the longest State-Query string. -/
def Config.strMax (c : Config) : Nat :=
  3 + (c.n - 1) + ((channels 1 c.n).map digits).sum

/-- `RBUF_MAX` (R7), the most words one response holds. -/
def Config.rbufMax (c : Config) : Nat :=
  1 + max (max c.qMax c.strMax) (max c.identBytes.length 1)

/-- `highbit` (R8) below bit `k`: the index of the highest set bit of `m` among bits `k - 1` to 0. -/
def highBelow (m : Mask) : Nat → Nat
  | 0 => 0
  | k + 1 => if m.getLsbD k then k else highBelow m k

/-- `highbit(m)` (R8), the index of the highest set bit of a nonzero mask. -/
def highBit (m : Mask) : Nat :=
  highBelow m 32

/-- The default of CYCLE_NEXT (R118). -/
def Config.cycleDefault (c : Config) (r : Mask) : Mask :=
  let r' := c.cut r
  if r' = 0#32 then bit 1
  else if highBit r' = c.n - 1 then 0#32
  else 1#32 <<< (highBit r' + 1)

/-- CYCLE_NEXT (R6, R118): the target the first row for `r` gives, and the default where no row lists
`r`, cut to N bits. -/
def Config.cycleNext (c : Config) (r : Mask) : Mask :=
  match c.cycleTable.lookup r with
  | some t => c.cut t
  | none => c.cut (c.cycleDefault r)

end Sys2Proof
end

