-- ==== Sys2Proof/Machine/Flags.lean ====
section
/-! DEFINITION. What the block reports. It has no condition codes or status flags (R34): it reports by
the kind and error code of each response (R64 to R66, R113) and by its outputs (R17, R121 to R123). -/

namespace Sys2Proof

/-- The code of R66. -/
def ErrCode.code : ErrCode → BitVec 8
  | .opcode => 0x01#8
  | .missing => 0x02#8
  | .malformed => 0x03#8
  | .channel => 0x04#8
  | .extra => 0x05#8
  | .order => 0x06#8
  | .tooLong => 0x07#8

end Sys2Proof

namespace Sys2Proof.Machine

/-- The kinds of R65. -/
def ackKind : BitVec 4 := 0x0#4
def flagsKind : BitVec 4 := 0x1#4
def intKind : BitVec 4 := 0x2#4
def strKind : BitVec 4 := 0x3#4
def identKind : BitVec 4 := 0x4#4
def errorKind : BitVec 4 := 0xF#4

/-- `hdr(kind, code, len)` (R64). -/
def hdr (kind : BitVec 4) (code : BitVec 8) (len : Nat) : Word :=
  kind ++ 0#4 ++ code ++ BitVec.ofNat 16 len

/-- The ACK response (R65). -/
def ackRsp : List Word :=
  [hdr ackKind 0#8 0]

/-- The ERROR response with the code (R65, R100). -/
def errorRsp (code : BitVec 8) : List Word :=
  [hdr errorKind code 0]

/-- `zext_32` of a flag (R65). -/
def flagWord (f : Bool) : Word :=
  if f then 1#32 else 0#32

/-- `flags_rsp(F)` (R113). -/
def flagsRsp (fs : List Bool) : List Word :=
  hdr flagsKind 0#8 fs.length :: fs.map flagWord

/-- `int_rsp(r)` (R113). -/
def intRsp (r : Mask) : List Word :=
  [hdr intKind 0#8 1, r]

/-- The decimals of the channels, separated by commas (R107). -/
def joinDec : List Nat → List Byte
  | [] => []
  | [c] => dec c
  | c :: cs => dec c ++ 0x2C#8 :: joinDec cs

/-- `bytes(fmt(r))` (R107): `(@`, the closed channels, `)`, as ASCII codes (log entry 11). -/
def fmt (c : Config) (r : Mask) : List Byte :=
  0x28#8 :: 0x40#8 :: joinDec (closedChannels c r) ++ [0x29#8]

/-- A byte in bits [7:0] of its own word (R42). -/
def byteWord (b : Byte) : Word :=
  b.setWidth 32

/-- `str_rsp(r)` (R113). -/
def strRsp (c : Config) (r : Mask) : List Word :=
  hdr strKind 0#8 (fmt c r).length :: (fmt c r).map byteWord

/-- `ident_rsp()` (R113). -/
def identRsp (c : Config) : List Word :=
  hdr identKind 0#8 c.identBytes.length :: c.identBytes.map byteWord

/-- `quiet(S)` (R87): events are pending, and the time since the last asserted sample, modulo 2^32,
exceeds the window. -/
def State.quiet (s : State) : Bool :=
  s.acc != 0#2 && decide (s.cfg.wDeb < (s.now - s.last).toNat)

/-- `cmd_ready(S)` (R121). -/
def State.cmdReady (s : State) : Bool :=
  (s.ctl == .idle && !s.quiet) || s.ctl == .args

/-- `rsp_valid(S)` (R122). -/
def State.rspValid (s : State) : Bool :=
  s.ctl == .rsp

/-- `rsp_data(S)` (R122). -/
def State.rspData (s : State) : Word :=
  if s.rspValid then s.rbuf.getD s.ridx.toNat 0#32 else 0#32

/-- `rsp_last(S)` (R122): the offered word is the last one. -/
def State.rspLast (s : State) : Bool :=
  s.rspValid && s.ridx.toNat + 1 == s.rbuf.length

/-- `busy(S)` (R72). -/
def State.busy (s : State) : Bool :=
  s.seq == .busy

/-- The output signals (R17). -/
structure Outputs where
  relayOut : Mask
  cmdReady : Bool
  rspValid : Bool
  rspData : Word
  rspLast : Bool
  busy : Bool
  manEvt : BitVec 2
  manEvtStb : Bool
deriving DecidableEq, Repr

/-- The outputs: a function of the state alone (R15, R70, R72, R121 to R123), forced to 0 while the
`rst` input is 1 (R141, log entry 10). -/
def State.outputs (s : State) (rst : Bool) : Outputs :=
  if rst then ⟨0#32, false, false, 0#32, false, false, 0#2, false⟩
  else ⟨s.relay, s.cmdReady, s.rspValid, s.rspData, s.rspLast, s.busy, s.mev, s.mevStb⟩

end Sys2Proof.Machine
end

