-- ==== Sys2Proof/Machine/Ops.lean ====
section
/-! DEFINITION. The named operations over the registers: phase writes and sequences of the Relay Bank
(R73 to R75), the debouncer's sample and read-and-clear (R86 to R88), raising an error and answering it
(R10, R100, R128), and returning to idle (R119, R129). -/

namespace Sys2Proof.Machine

/-! Inputs of the step -/

/-- What the environment drives in this step (log entry 1). -/
def State.input (s : State) : Inputs :=
  match s.inputs with
  | I :: _ => I
  | [] => Config.freeInputs s.drawn

/-- The inputs of this step are used up (log entry 1). -/
def State.nextInput (s : State) : State :=
  match s.inputs with
  | _ :: rest => { s with inputs := rest }
  | [] => { s with drawn := s.drawn + 1 }

/-- A step with `rst = 1` (R140): RESET_STATE with the same parameters. -/
def State.resetStep (s : State) : State :=
  State.resetWith s.cfg s.nextInput.inputs s.nextInput.drawn

/-- A word moves on the command port in this step (R17). -/
def State.accepts (s : State) : Bool :=
  s.input.cmdValid && s.cmdReady

/-! Relay Bank -/

/-- `phase_write` (R73) on the relay value `s.relay`, with a mask already cut (R68). -/
def State.phaseWrite (k : Kind) (m : Mask) (s : State) : State :=
  match k with
  | .opn => { s with relay := s.relay &&& ~~~m, dly := BitVec.ofNat 16 s.cfg.tRel, seq := .busy }
  | .cls => { s with relay := s.relay ||| m, dly := BitVec.ofNat 16 s.cfg.tOp, seq := .busy }

/-- The first phase of a sequence (R74). -/
def SeqSpec.first (c : Config) (r : Mask) : SeqSpec → Kind × Mask
  | .opn m => (.opn, c.cut m)
  | .cls m => (.cls, c.cut m)
  | .setBbm t => (.opn, r &&& ~~~(c.cut t))
  | .setMbb t => (.cls, c.cut t)

/-- The second phase of a sequence, where it has one (R74). -/
def SeqSpec.second (c : Config) (r : Mask) : SeqSpec → Option (Kind × Mask)
  | .opn _ => none
  | .cls _ => none
  | .setBbm t => some (.cls, c.cut t)
  | .setMbb t => some (.opn, r &&& ~~~(c.cut t))

/-- The `p2_*` registers after a start (R74): a start without a second phase writes `p2_valid` only. -/
def State.holdSecond (second : Option (Kind × Mask)) (s : State) : State :=
  match second with
  | none => { s with p2Valid := false }
  | some (k, m) => { s with p2Valid := true, p2Kind := k, p2Mask := m }

/-- `rb_start` (R74). A start in a state with `seq = S_BUSY` is a fault. -/
def State.rbStart (spec : SeqSpec) (s : State) : Result :=
  match s.seq with
  | .busy => .fault .startWhileBusy
  | .idle =>
    let f := spec.first s.cfg s.relay
    .next ((s.phaseWrite f.1 f.2).holdSecond (spec.second s.cfg s.relay))

/-- `rb_advance` (R75) with the step's tick: the state and `seq_done`. While `seq = S_IDLE` the
sequencer does nothing. -/
def State.rbAdvance (tick : Bool) (s : State) : State × Bool :=
  match s.seq with
  | .idle => (s, false)
  | .busy =>
    if !tick then (s, false)
    else if 1 < s.dly.toNat then ({ s with dly := s.dly - 1#16 }, false)
    else if s.p2Valid then ({ s.phaseWrite s.p2Kind s.p2Mask with p2Valid := false }, false)
    else ({ s with seq := .idle, dly := 0#16 }, true)

/-! Button Debouncer -/

/-- `deb_read` (R88): the event set `ev` and the accumulator `acc_r` it leaves. -/
def State.debRead (take : Bool) (s : State) : BitVec 2 × BitVec 2 :=
  if take && s.quiet then (s.acc, 0#2) else (0#2, s.acc)

/-- `deb_sample` (R86), on a tick, into the accumulator `accR`, stamped with the time `now`. -/
def State.debSample (btn accR : BitVec 2) (now : BitVec 32) (s : State) : State :=
  if btn ≠ 0#2 then { s with acc := accR ||| btn, last := now } else { s with acc := accR }

/-- Part (4) of the step (R89, R124): on a tick the sample and the tick counter, otherwise the
accumulator the read left. `now` is the tick counter the step started from. -/
def State.tickPart (I : Inputs) (accR : BitVec 2) (now : BitVec 32) (s : State) : State :=
  if I.tick then { s.debSample I.btnRaw accR now with now := now + 1#32 } else { s with acc := accR }

/-! Responses -/

/-- `respond(L)` (R113). -/
def State.respond (l : List Word) (s : State) : State :=
  { s with rbuf := l, ridx := 0#16, ctl := .rsp }

/-- A response word is taken (R119, R129): the last one empties `rbuf` and leads back to idle. -/
def State.takeWord (s : State) : State :=
  if s.ridx.toNat + 1 = s.rbuf.length then { s with rbuf := [], ridx := 0#16, ctl := .idle }
  else { s with ridx := s.ridx + 1#16 }

/-! Errors -/

/-- `raise CmdError(code)` (R10): the first error of a command wins. -/
def State.raise (c : ErrCode) (s : State) : State :=
  if s.err = 0#8 then { s with err := c.code } else s

/-! Receiving a command -/

/-- The register writes of `disp_header` (R96). -/
def State.beginCommand (op : BitVec 4) (err : BitVec 8) (s : State) : State :=
  { s with op := op, err := err, nargs := 0#16, amask := 0#32, aval := 0#32, qflags := [] }

/-- `nargs <- min(nargs + 1, 65535)` (R97). -/
def State.countArg (s : State) : State :=
  if s.nargs = 0xFFFF#16 then s else { s with nargs := s.nargs + 1#16 }

/-- The error a command ends with (R100): the one raised, or E_MISSING where the class needs an argument
word and none came. -/
def State.finalErr (cl : ArgClass) (s : State) : BitVec 8 :=
  if s.err = 0#8 ∧ cl ≠ .none ∧ s.nargs = 0#16 then ErrCode.missing.code else s.err

/-- `disp_finish` (R100): an ERROR response where the command has an error, its action otherwise. -/
def State.finish (cl : ArgClass) (act : State → Result) (s : State) : Result :=
  if s.finalErr cl ≠ 0#8 then .next (s.respond (errorRsp (s.finalErr cl))) else act s

/-- `start_cmd(spec)` (R100): the sequence starts, and `ctl` waits for its end. -/
def State.startCmd (spec : SeqSpec) (s : State) : Result :=
  match s.rbStart spec with
  | .next t => .next { t with ctl := .seq }
  | .fault f => .fault f
  | .refused r => .refused r

/-- An argument word (R97): decoded by the class's rule while no error is raised, then counted. -/
def State.argWord (arg : Inputs → State → State) (s : State) : State :=
  (if s.err = 0#8 then arg s.input s else s).countArg

/-- What a command does in one step with the word on the command port. A word that does not move has no
effect (R17, R146, log entry 13). In C_IDLE the word is the command's header (R96), in C_ARGS an argument
word (R97). The word with `cmd_last` ends the command (R100), any other leads to C_ARGS (R119). -/
def State.receive (op : BitVec 4) (cl : ArgClass) (arg : Inputs → State → State)
    (act : State → Result) (s : State) : Result :=
  if !s.accepts then .next s
  else
    let t := if s.ctl = .idle then s.beginCommand op 0#8 else s.argWord arg
    if s.input.cmdLast then t.finish cl act else .next { t with ctl := .args }

/-- What a word of a command without a legal header does: in C_IDLE the header raises E_OPCODE (R96); in
C_ARGS the word is consumed undecoded (R59, R97). The command ends in an ERROR response (R62, R100). A
reserved opcode with no error raised is in no reachable state and faults (log entry 6). -/
def State.illegalWord (s : State) : Result :=
  let t :=
    if s.ctl = .idle then s.beginCommand (headerOpcode s.input.cmdData) ErrCode.opcode.code
    else s.countArg
  if t.err = 0#8 then .fault .noSuchCommand
  else if s.input.cmdLast then .next (t.respond (errorRsp t.err)) else .next { t with ctl := .args }

end Sys2Proof.Machine
end

