-- ==== Sys2Proof/Machine/Operands.lean ====
section
/-! DEFINITION. The operand forms: the channel-list entry (R98), the numeric word (R97, R61) and the
ignored word (R59, R97), each as what it does to the dispatcher's registers while `err = 0`. -/

namespace Sys2Proof.Machine

/-- The flags of the channels `lo` to `hi` of the relay state, ascending (R98, R105). -/
def flagsOf (r : Mask) (lo hi : Nat) : List Bool :=
  (channels lo hi).map (closed r)

/-- A decoded entry (R98, from the channel test on). `collect` is set for CLOSE_Q, which appends a flag
for each channel. -/
def State.useEntry (collect : Bool) (e : Entry) (s : State) : State :=
  if !(s.cfg.hasChannel e.lo && s.cfg.hasChannel e.hi) then s.raise .channel
  else if e.hi < e.lo then s.raise .order
  else if collect then
    if s.cfg.qMax < s.qflags.length + (e.hi - e.lo + 1) then s.raise .tooLong
    else
      { s with
        qflags := s.qflags ++ flagsOf s.relay e.lo e.hi
        amask := s.amask ||| maskOf (channels e.lo e.hi) }
  else { s with amask := s.amask ||| maskOf (channels e.lo e.hi) }

/-- `disp_entry` (R98). -/
def State.entryArg (collect : Bool) (I : Inputs) (s : State) : State :=
  match decodeEntry I.cmdData I.cmdErr with
  | .error c => s.raise c
  | .ok e => s.useEntry collect e

/-- The numeric argument (R97): a second word is E_EXTRA, before that word's own mark (R102). -/
def State.numberArg (I : Inputs) (s : State) : State :=
  if s.nargs ≠ 0#16 then s.raise .extra
  else
    match decodeNumber I.cmdData I.cmdErr with
    | .error c => s.raise c
    | .ok v => { s with aval := v }

/-- An argument word of a command of class NONE: ignored, even when marked (R59, R97). -/
def State.ignoredArg (_ : Inputs) (s : State) : State :=
  s

end Sys2Proof.Machine
end

