-- ==== Sys2Proof/Machine/ListCommands.lean ====
section
/-! DEFINITION. The commands of class LIST: OPEN, CLOSE and CLOSE_Q (R103 to R105). Each meaning is what
the command does in one step with the word on the command port (log entry 7). -/

namespace Sys2Proof.Machine

/-- `OPEN` (R103): opens the union of its entries. -/
def execOpen (s : State) : Result :=
  s.receive (Instr.opcode .opn) .list (State.entryArg false) (fun t => t.startCmd (.opn t.amask))

/-- `CLOSE` (R104): closes the union of its entries. -/
def execClose (s : State) : Result :=
  s.receive (Instr.opcode .cls) .list (State.entryArg false) (fun t => t.startCmd (.cls t.amask))

/-- `CLOSE_Q` (R105): answers one flag for each listed channel, in list order. -/
def execCloseQ (s : State) : Result :=
  s.receive (Instr.opcode .clsQ) .list (State.entryArg true)
    (fun t => .next (t.respond (flagsRsp t.qflags)))

end Sys2Proof.Machine
end

