-- ==== Sys2Proof/Machine/PlainCommands.lean ====
section
/-! DEFINITION. The commands of class NONE: OPEN_ALL, STATE_Q, GET_Q and IDENT (R106, R107, R110,
R111). -/

namespace Sys2Proof.Machine

/-- `OPEN_ALL` (R106): opens every channel. -/
def execOpenAll (s : State) : Result :=
  s.receive (Instr.opcode .opnAll) .none State.ignoredArg (fun t => t.startCmd (.opn t.cfg.valid))

/-- `STATE_Q` (R107): answers the closed channels as a channel-list string. -/
def execStateQ (s : State) : Result :=
  s.receive (Instr.opcode .stateQ) .none State.ignoredArg
    (fun t => .next (t.respond (strRsp t.cfg t.relay)))

/-- `GET_Q` (R110): answers the relay state as an integer. -/
def execGetQ (s : State) : Result :=
  s.receive (Instr.opcode .getQ) .none State.ignoredArg (fun t => .next (t.respond (intRsp t.relay)))

/-- `IDENT` (R111): answers the identity bytes. -/
def execIdent (s : State) : Result :=
  s.receive (Instr.opcode .ident) .none State.ignoredArg
    (fun t => .next (t.respond (identRsp t.cfg)))

end Sys2Proof.Machine
end

