-- ==== Sys2Proof/Machine/SetCommands.lean ====
section
/-! DEFINITION. The commands of class NUM: SET and SET_MBB (R108, R109). -/

namespace Sys2Proof.Machine

/-- `SET` (R108): the relays become the numeric argument, break before make. -/
def execSet (s : State) : Result :=
  s.receive (Instr.opcode .set) .num State.numberArg (fun t => t.startCmd (.setBbm t.aval))

/-- `SET_MBB` (R109): the relays become the numeric argument, make before break. -/
def execSetMbb (s : State) : Result :=
  s.receive (Instr.opcode .setMbb) .num State.numberArg (fun t => t.startCmd (.setMbb t.aval))

end Sys2Proof.Machine
end

