-- ==== Sys2Proof/Machine/Dispatch.lean ====
section
/-! DEFINITION. exec: one arm for each command of the opcode table (R58). -/

namespace Sys2Proof.Machine

def exec (i : Instr) (s : State) : Host.Outcome State Fault Refusal :=
  match i with
  | .opn => Sys2Proof.Machine.execOpen s
  | .cls => Sys2Proof.Machine.execClose s
  | .clsQ => Sys2Proof.Machine.execCloseQ s
  | .opnAll => Sys2Proof.Machine.execOpenAll s
  | .stateQ => Sys2Proof.Machine.execStateQ s
  | .set => Sys2Proof.Machine.execSet s
  | .setMbb => Sys2Proof.Machine.execSetMbb s
  | .getQ => Sys2Proof.Machine.execGetQ s
  | .ident => Sys2Proof.Machine.execIdent s

end Sys2Proof.Machine
end

