-- ==== Sys2Proof/Machine/Control.lean ====
section
/-! DEFINITION. The control multiplexer: the manual action (R117), the transitions of `ctl` (R119), the
invariants a state must keep (R120) and the step of the block (R124). -/

namespace Sys2Proof

/-- A word of a command offered on the command port, with nothing else driven. -/
def PortWord.offer (p : PortWord) : Inputs where
  rst := false
  tick := false
  btnRaw := 0#2
  cmdValid := true
  cmdData := p.data
  cmdLast := p.last
  cmdErr := p.err
  rspReady := false

end Sys2Proof

namespace Sys2Proof.Machine

/-- The sequence a Cycle press starts (R117): a set to CYCLE_NEXT under CYCLE_POLICY. -/
def cycleSpec (c : Config) (r : Mask) : SeqSpec :=
  match c.cyclePolicy with
  | .bbm => .setBbm (c.cycleNext r)
  | .mbb => .setMbb (c.cycleNext r)

/-- The sequence of a fired event set (R117): Clear (bit 1) goes before Cycle. -/
def manualSpec (ev : BitVec 2) (s : State) : SeqSpec :=
  if ev.getLsbD 1 then .opn s.cfg.valid else cycleSpec s.cfg s.relay

/-- `mux_manual(ev)` (R117). -/
def State.manual (ev : BitVec 2) (s : State) : Result :=
  match s.rbStart (manualSpec ev s) with
  | .next t => .next { t with ctl := .man, mev := ev, mevStb := true }
  | .fault f => .fault f
  | .refused r => .refused r

/-- A word is taken from the command port in C_IDLE or C_ARGS (R119): the command it belongs to runs. In
C_IDLE the header is decoded (R57); in C_ARGS `op` names the command. -/
def State.commandWord (s : State) : Result :=
  if s.ctl = .idle then
    match decodeHeader s.input.cmdData s.input.cmdErr with
    | .ok i => exec i s
    | .error _ => s.illegalWord
  else
    match instrOfOpcode s.op with
    | some i => exec i s
    | none => s.illegalWord

/-- The row of R119 that `ctl`, the event set, the inputs and `seq_done` select. -/
def State.control (ev : BitVec 2) (done : Bool) (s : State) : Result :=
  match s.ctl with
  | .idle =>
    if ev ≠ 0#2 then s.manual ev
    else if s.input.cmdValid then s.commandWord else .next s
  | .args => if s.input.cmdValid then s.commandWord else .next s
  | .seq => .next (if done then s.respond ackRsp else s)
  | .man => .next (if done then { s with ctl := .idle } else s)
  | .rsp => .next (if s.input.rspReady then s.takeWord else s)

/-! The invariants of R120, in its order -/

/-- `ctl` and `seq` agree. -/
abbrev State.PathsAgree (s : State) : Prop :=
  s.seq = .busy ↔ s.ctl = .seq ∨ s.ctl = .man

/-- A running phase has a delay in range. -/
abbrev State.DelayInRange (s : State) : Prop :=
  s.seq = .busy → 1 ≤ s.dly.toNat ∧ s.dly.toNat ≤ max s.cfg.tOp s.cfg.tRel

/-- An offered response has a word at the index. -/
abbrev State.ResponseInRange (s : State) : Prop :=
  s.ctl = .rsp →
    1 ≤ s.rbuf.length ∧ s.rbuf.length ≤ s.cfg.rbufMax ∧ s.ridx.toNat < s.rbuf.length

/-- The flags collected fit. -/
abbrev State.FlagsInRange (s : State) : Prop :=
  s.qflags.length ≤ s.cfg.qMax

/-- The invariants of R120. -/
abbrev State.Invariants (s : State) : Prop :=
  s.PathsAgree ∧ s.DelayInRange ∧ s.ResponseInRange ∧ s.FlagsInRange

/-- Every register holds what its width and bound let it hold: the N-bit masks have no bit of N or above
(R20, R26, R28), and `rbuf` has at most RBUF_MAX words (R28). -/
abbrev State.Representable (s : State) : Prop :=
  s.cfg.cut s.relay = s.relay ∧ s.cfg.cut s.p2Mask = s.p2Mask ∧ s.cfg.cut s.amask = s.amask ∧
    s.rbuf.length ≤ s.cfg.rbufMax

/-! The step -/

/-- The end of a step: part (4) of R124, and the inputs of the step are used up. `accR` is what the
read-and-clear left, `s` the state the step started from. -/
def State.endStep (s : State) (accR : BitVec 2) (t : State) : State :=
  (t.tickPart s.input accR s.now).nextInput

/-- The step of a state that keeps its invariants, with `rst = 0` (R124): `mev_stb` falls; (1) the
read-and-clear; (2) the sequencer; (3) the control multiplexer; (4) the sample and the tick counter. Since
the read goes before the sample (R89), a polled gap of exactly W_DEB quiet ticks splits a burst, against
R92's words (DEDUCED from R87, R89 and R91, log entry 14). -/
def State.runStep (s : State) : Result :=
  let read := s.debRead (s.ctl == .idle)
  let adv := State.rbAdvance s.input.tick { s with mevStb := false }
  match adv.1.control read.1 adv.2 with
  | .next t => .next (s.endStep read.2 t)
  | .fault f => .fault f
  | .refused r => .refused r

/-- One step of the block (R124). A configuration outside R6 is refused (R131, log entry 5); `rst = 1`
overrides everything else (R133, R140, log entry 5); a state that breaks an invariant of R120 or that
the registers cannot hold is a fault (R131). -/
def clockStep (s : State) : Result :=
  if ¬ s.cfg.Legal then .refused .illegalConfig
  else if s.input.rst then .next s.resetStep
  else if ¬ s.Invariants then .fault .invariantBroken
  else if ¬ s.Representable then .fault .notAState
  else s.runStep

/-- The state in which the command source offers the packet from the next step on, and the block is
waiting for a header: C_IDLE, no sequence running, no event pending (R116, R121, log entry 8). -/
def State.offerPacket (ps : List PortWord) (s : State) : State :=
  { s with
    ctl := .idle
    seq := .idle
    acc := 0#2
    inputs := ps.map PortWord.offer ++ s.inputs }

end Sys2Proof.Machine
end

