-- ==== Sys2Proof/Machine/Step.lean ====
section
/-! DEFINITION. The step of the machine and where it takes its next command from. -/

namespace Sys2Proof.Machine

/-- One rising edge of the clock (R15, R124). -/
def step (s : State) : Host.Outcome State Fault Refusal :=
  clockStep s

/-- `s` with the instruction whose bits are `w` offered on the command port from the next step on. -/
def State.withFetchWord (s : State) (nbits w : Nat) : State :=
  s.offerPacket (tablePacket nbits w)

end Sys2Proof.Machine
end

