-- ==== Sys2Proof/WellFormed.lean ====
section
/-! DEFINITION. When a command is well formed: its arguments are of its class (R59), as many as the
class takes, and its channel list is one the block accepts (R98). -/

namespace Sys2Proof

/-- The argument is a word of the class (R59). -/
def Arg.ofClass : ArgClass → Arg → Bool
  | .list, .entry _ => true
  | .num, .number _ => true
  | .none, .ignored _ _ => true
  | _, _ => false

/-- The number of arguments the class takes: LIST one or more, NUM exactly one, NONE any (R59). -/
def ArgClass.countOk : ArgClass → Nat → Bool
  | .list, k => 1 ≤ k
  | .num, k => k == 1
  | .none, _ => true

/-- The command has arguments of its class, as many as the class takes (R59): what the encoder takes. -/
def Command.shapeOk (c : Command) : Bool :=
  c.instr.argClass.countOk c.args.length && c.args.all (Arg.ofClass c.instr.argClass)

/-- Both ends of the entry are channels of a block with `n` channels (R98, E_CHANNEL). -/
def Entry.inRange (n : Nat) (e : Entry) : Bool :=
  1 ≤ e.lo && e.lo ≤ n && 1 ≤ e.hi && e.hi ≤ n

/-- The entry does not run backwards (R98, E_ORDER). -/
def Entry.ordered (e : Entry) : Bool :=
  e.lo ≤ e.hi

/-- The number of channels an ordered entry lists (R98). -/
def Entry.size (e : Entry) : Nat :=
  e.hi - e.lo + 1

/-- The entry of an argument, where it is one. -/
def Arg.entry? : Arg → Option Entry
  | .entry e => some e
  | _ => none

/-- The channel list of a command. -/
def Command.entries (c : Command) : List Entry :=
  c.args.filterMap Arg.entry?

/-- A Close-Query returns at most `qMax` flags (R98, E_TOO_LONG). -/
def Command.flagsOk (qMax : Nat) (c : Command) : Bool :=
  c.instr != .clsQ || decide ((c.entries.map Entry.size).sum ≤ qMax)

/-- The command is one the block carries out without an error, with `n` channels and `QMAX = qMax`. -/
def Command.wellFormed (n qMax : Nat) (c : Command) : Bool :=
  c.shapeOk && c.entries.all (fun e => e.inRange n && e.ordered) && c.flagsOk qMax

end Sys2Proof
end

