-- ==== Sys2Proof/Safety.lean ====
section
/-! DEFINITION. The terms in which the claims are stated: sound states, runs, what a run of inputs
delivers, and the effect and answer of a well-formed command. -/

namespace Sys2Proof

/-! What a list of inputs does -/

/-- The word offered in a step, where one is (R17, R55). -/
def Inputs.word? (I : Inputs) : Option PortWord :=
  if I.cmdValid then some ⟨I.cmdData, I.cmdLast, I.cmdErr⟩ else none

/-- The number of ticks in a list of inputs (R16). -/
def ticks (l : List Inputs) : Nat :=
  (l.filter Inputs.tick).length

/-- The number of steps in which the response sink is ready. -/
def readies (l : List Inputs) : Nat :=
  (l.filter Inputs.rspReady).length

/-- No step of the list is a reset. -/
def noReset (l : List Inputs) : Bool :=
  l.all (fun I => !I.rst)

/-- The list offers the words of the packet in order, the first in its first step and the last in its
last step, with any steps without a word between them, any ticks, any button levels and any response
handshake, and no reset. -/
def Delivers (ps : List PortWord) (l : List Inputs) : Prop :=
  l.filterMap Inputs.word? = ps ∧ noReset l = true ∧
    (∃ I, l.head? = some I ∧ I.cmdValid = true) ∧ (∃ I, l.getLast? = some I ∧ I.cmdValid = true)

/-- The list has `k` ticks, the last of them in its last step, and no reset: the wait for a delay of `k`
ticks (R75). -/
def Waits (k : Nat) (l : List Inputs) : Prop :=
  ticks l = k ∧ noReset l = true ∧ (∃ I, l.getLast? = some I ∧ I.tick = true)

/-! The effect and the answer of a well-formed command -/

/-- The mask of the union of a channel list (R103). -/
def unionMask : List Entry → Mask
  | [] => 0#32
  | e :: es => maskOf (channels e.lo e.hi) ||| unionMask es

/-- The flags a Close-Query of the channel list answers (R105). -/
def listFlags (r : Mask) : List Entry → List Bool
  | [] => []
  | e :: es => (channels e.lo e.hi).map (closed r) ++ listFlags r es

/-- The numeric argument of a command, 0 where it has none. -/
def Command.number (c : Command) : Word :=
  match c.args with
  | [.number v] => v
  | _ => 0#32

/-- The commands that change the relays (R103, R104, R106, R108, R109); the others are queries (R112). -/
def Instr.mutating : Instr → Bool
  | .opn => true
  | .cls => true
  | .opnAll => true
  | .set => true
  | .setMbb => true
  | .clsQ => false
  | .stateQ => false
  | .getQ => false
  | .ident => false

/-- The relay state a well-formed command leaves, from the relay state `r` (R77 to R80, R82). -/
def Command.target (cfg : Config) (r : Mask) (c : Command) : Mask :=
  match c.instr with
  | .opn => r &&& ~~~(unionMask c.entries)
  | .cls => r ||| unionMask c.entries
  | .opnAll => 0#32
  | .set => c.number &&& cfg.valid
  | .setMbb => c.number &&& cfg.valid
  | .clsQ => r
  | .stateQ => r
  | .getQ => r
  | .ident => r

/-- The ticks a well-formed command waits (R76). -/
def Command.delay (cfg : Config) (c : Command) : Nat :=
  match c.instr with
  | .opn => cfg.tRel
  | .cls => cfg.tOp
  | .opnAll => cfg.tRel
  | .set => cfg.tRel + cfg.tOp
  | .setMbb => cfg.tOp + cfg.tRel
  | .clsQ => 0
  | .stateQ => 0
  | .getQ => 0
  | .ident => 0

namespace Machine

/-- The response of a well-formed command, from the relay state `r` (R103 to R111). -/
def answer (cfg : Config) (r : Mask) (c : Command) : List Word :=
  match c.instr with
  | .clsQ => flagsRsp (listFlags r c.entries)
  | .stateQ => strRsp cfg r
  | .getQ => intRsp r
  | .ident => identRsp cfg
  | .opn => ackRsp
  | .cls => ackRsp
  | .opnAll => ackRsp
  | .set => ackRsp
  | .setMbb => ackRsp

/-! Sound states -/

/-- In C_ARGS the command is one of the nine, or it has raised an error (R96): the model's own invariant,
which follows from R96 and which the spec does not list (log entry 6). -/
abbrev State.CommandKnown (s : State) : Prop :=
  s.ctl = .args → (instrOfOpcode s.op).isSome = true ∨ s.err ≠ 0#8

/-- A state the block can be in: legal parameters (R6), the invariants of R120, registers within their
widths, and a known command. -/
def State.Sound (s : State) : Prop :=
  s.cfg.Legal ∧ s.Invariants ∧ s.Representable ∧ s.CommandKnown

/-- An error code the block produces: 0 for none, or 1 to 7 (R66). -/
abbrev State.ErrKnown (s : State) : Prop :=
  s.err.toNat ≤ 7

/-- A list of words is a response of R64 and R65: a header of a produced kind, with its reserved field
0, the number of payload words in `len`, and an error code from 1 to 7 in an ERROR, 0 otherwise. -/
def isResponse : List Word → Prop
  | [] => False
  | h :: payload =>
    (h.extractLsb' 0 16).toNat = payload.length ∧ h.extractLsb' 24 4 = 0#4 ∧
      ((h.extractLsb' 28 4 = 0xF#4 ∧ payload = [] ∧
          1 ≤ (h.extractLsb' 16 8).toNat ∧ (h.extractLsb' 16 8).toNat ≤ 7) ∨
        ((h.extractLsb' 28 4).toNat ≤ 4 ∧ h.extractLsb' 16 8 = 0#8 ∧
          (h.extractLsb' 28 4 = 0x0#4 → payload = []) ∧
          (h.extractLsb' 28 4 = 0x1#4 → ∀ w ∈ payload, w = 0#32 ∨ w = 1#32) ∧
          (h.extractLsb' 28 4 = 0x2#4 → payload.length = 1) ∧
          (h.extractLsb' 28 4 = 0x3#4 ∨ h.extractLsb' 28 4 = 0x4#4 →
            ∀ w ∈ payload, w.toNat < 256)))

/-- What is offered in C_RSP is a response. -/
def State.ResponseKnown (s : State) : Prop :=
  s.ctl = .rsp → isResponse s.rbuf

/-- The read fires in this step, where it is not a reset (R88, R115). -/
def State.fires (s : State) : Bool :=
  s.ctl == .idle && s.quiet

/-! Runs -/

/-- The response word taken in this step, where one is, with the `rsp_last` it is offered with (R17, R63,
R122): read off the outputs, so that nothing is taken while `rst = 1`. -/
def State.takenWord? (s : State) : Option (Word × Bool) :=
  let o := s.outputs s.input.rst
  if o.rspValid && s.input.rspReady then some (o.rspData, o.rspLast) else none

/-- The response words taken in the next `k` steps, in order, each with its `rsp_last`. -/
def takenWords : Nat → State → List (Word × Bool)
  | 0, _ => []
  | k + 1, s =>
    match step s with
    | .next t => s.takenWord?.toList ++ takenWords k t
    | _ => s.takenWord?.toList

/-- `k` steps of the machine, stopping at the first fault or refusal (`Host.Core.run` of the core). -/
def run : Nat → State → Result
  | 0, s => .next s
  | k + 1, s =>
    match step s with
    | .next t => run k t
    | .fault f => .fault f
    | .refused r => .refused r

/-! Words on the command port, and sequences under way, in the terms of the statements -/

/-- R97: the argument counter after one more word: it saturates at 65535. -/
def argCount (k : BitVec 16) : BitVec 16 :=
  BitVec.ofNat 16 (min (k.toNat + 1) 65535)

/-- R98 in numbers: the error an entry word raises before the flags are counted, 0 for none. -/
def entryErr (n : Nat) (w : Word) (marked : Bool) : BitVec 8 :=
  let v := w.toNat
  let kind := v / 2 ^ 30
  let first := if kind = 0 then v % 2 ^ 8 else v / 2 ^ 8 % 2 ^ 8
  let last := v % 2 ^ 8
  if marked = true then 3#8
  else if 2 ≤ kind ∨ v / 2 ^ 16 % 2 ^ 14 ≠ 0 then 3#8
  else if kind = 0 ∧ v / 2 ^ 8 % 2 ^ 8 ≠ 0 then 3#8
  else if ¬ (1 ≤ first ∧ first ≤ n) ∨ ¬ (1 ≤ last ∧ last ≤ n) then 4#8
  else if last < first then 6#8
  else 0#8

/-- The entry a word on the port stands for is a legal one: the hypotheses of the statements about
entries. -/
def LegalEntryOffered (s : State) (e : Entry) : Prop :=
  s.ctl = .args ∧ s.err = 0#8 ∧ s.input.cmdValid = true ∧ s.input.cmdErr = false ∧
    s.input.cmdData = encodeEntry e ∧ 1 ≤ e.lo ∧ e.lo ≤ e.hi ∧ e.hi ≤ s.cfg.n

/-- The state a command of class NONE finishes from, at its last word: the header itself, or any argument
word (R59, R96, R97). -/
def plainReceived (i : Instr) (s : State) : State :=
  if s.ctl = .idle then
    { s with op := i.opcode, err := 0#8, nargs := 0#16, amask := 0#32, aval := 0#32, qflags := [] }
  else { s with nargs := argCount s.nargs }

/-- A command of class NONE takes its last word in `s`: the header in C_IDLE, or an argument word, marked
or not, in C_ARGS. -/
def LastPlainWord (s : State) : Prop :=
  s.input.cmdValid = true ∧ s.input.cmdLast = true ∧
    ((s.ctl = .idle ∧ s.quiet = false) ∨ (s.ctl = .args ∧ s.err = 0#8))

/-- The one numeric word of a SET or SET_MBB is on the port and ends the command. -/
def NumberOffered (s : State) (v : Word) : Prop :=
  s.ctl = .args ∧ s.err = 0#8 ∧ s.nargs = 0#16 ∧ s.input.cmdValid = true ∧ s.input.cmdLast = true ∧
    s.input.cmdErr = false ∧ s.input.cmdData = v

/-- The sequencer of a state in which a phase has just started holds the sequence `spec` that started
from the relay state `r` (R74). -/
def HoldsSequence (spec : SeqSpec) (r : Mask) (s : State) : Prop :=
  ∃ t u : State, t.seq = .idle ∧ t.relay = r ∧ t.cfg = s.cfg ∧ t.rbStart spec = .next u ∧
    s.relay = u.relay ∧ s.dly = u.dly ∧ s.seq = u.seq ∧ s.p2Valid = u.p2Valid ∧
    (s.p2Valid = true → s.p2Kind = u.p2Kind ∧ s.p2Mask = u.p2Mask)

/-- One step of the environment of R152: a tick, a ready sink, no button. -/
def tickBeat : Inputs where
  rst := false
  tick := true
  btnRaw := 0#2
  cmdValid := false
  cmdData := 0#32
  cmdLast := false
  cmdErr := false
  rspReady := true

/-- The inputs of R152: the words of a packet back to back, then nothing, with ticks in every step. -/
def backToBack (ps : List PortWord) (m : Nat) : List Inputs :=
  ps.map (fun p => { tickBeat with
    cmdValid := true, cmdData := p.data, cmdLast := p.last, cmdErr := p.err }) ++
  List.replicate m tickBeat

end Machine

end Sys2Proof
end

