-- ==== Sys2Proof/Certificates/Slice0/Obligations.lean ====
section
/-! DEFINITION. The statements for the provers. Each docstring names the rules of spec/ it comes from;
where a statement rests on a choice of the model, it names the log entry. Rules that the spec itself
infers from other rules, and marks so, are called its inferences: R7, R50, R80 (its last form of phase
2), R82 to R85, R91, R93, R95, R101, R112, R113 (its length bound), R120, R125, R129, R144, R148, R150 and
R152. -/

open Sys2Proof Sys2Proof.Machine

/-! Encoding -/

/-- R58, R60: the words of four headers and of four entry words, written out from the spec's layouts,
decode to what they stand for. -/
def Obligations.WrittenOutWordsDecode : Prop :=
  decodeHeader 0x00000001#32 false = .ok .opn ∧
  decodeHeader 0x00000003#32 false = .ok .clsQ ∧
  decodeHeader 0x00000006#32 false = .ok .set ∧
  decodeHeader 0x00000009#32 false = .ok .ident ∧
  decodeEntry 0x00000063#32 false = .ok (.single 99#8) ∧
  decodeEntry 0x40000304#32 false = .ok (.range 3#8 4#8) ∧
  decodeEntry 0x80000001#32 false = .error .malformed ∧
  decodeEntry 0x00000201#32 false = .error .malformed

/-- R57, R58, R62: a header is legal exactly when it is unmarked and all its 32 bits are those of one of
the nine opcodes, and any other header is rejected with E_OPCODE. -/
def Obligations.HeaderIsLegalExactlyForNineWords : Prop :=
  ∀ (w : Word) (marked : Bool),
    (∀ i : Instr, decodeHeader w marked = .ok i ↔
      marked = false ∧
        (w, i) ∈ [(0x00000001#32, Instr.opn), (0x00000002#32, Instr.cls), (0x00000003#32, Instr.clsQ),
          (0x00000004#32, Instr.opnAll), (0x00000005#32, Instr.stateQ), (0x00000006#32, Instr.set),
          (0x00000007#32, Instr.setMbb), (0x00000008#32, Instr.getQ), (0x00000009#32, Instr.ident)]) ∧
    ((∀ i : Instr, decodeHeader w marked ≠ .ok i) → decodeHeader w marked = .error .opcode)

/-- R60: an entry word stands for one element of a channel list, and each element has one word. -/
def Obligations.EntryWordsAndElementsCorrespond : Prop :=
  ∀ (w : Word) (e : Entry), decodeEntry w false = .ok e ↔ w = encodeEntry e

/-- R60, R62, R98: the entry words that raise E_MALFORMED, read off the number of the word. -/
def Obligations.MalformedEntryWords : Prop :=
  ∀ (w : Word) (marked : Bool),
    decodeEntry w marked = .error .malformed ↔
      marked = true ∨ 2 ≤ w.toNat / 2 ^ 30 ∨ w.toNat / 2 ^ 16 % 2 ^ 14 ≠ 0 ∨
        (w.toNat / 2 ^ 30 = 0 ∧ w.toNat / 2 ^ 8 % 2 ^ 8 ≠ 0)

/-- R55 to R61: the packet of every command with arguments of its class decodes to that command. -/
def Obligations.DecodingAnEncodedCommandGivesItBack : Prop :=
  ∀ c : Command, c.shapeOk = true → decodeCommand (encodeCommand c) = .ok c

/-- R55 to R62: every packet the decoder accepts is the packet of the command it gives. -/
def Obligations.DecodedPacketsAreEncodedCommands : Prop :=
  ∀ (ps : List PortWord) (c : Command),
    decodeCommand ps = .ok c → c.shapeOk = true ∧ encodeCommand c = ps

/-! The parameters and the masks -/

/-- R19, R98, R103: the mask of a range has exactly the bits of its channels. -/
def Obligations.RangeMaskHasTheBitsOfItsChannels : Prop :=
  ∀ lo hi k : Nat, 1 ≤ lo → hi ≤ 32 → k < 32 →
    ((maskOf (channels lo hi)).getLsbD k = true ↔ lo ≤ k + 1 ∧ k + 1 ≤ hi)

/-- R118: with no row in the table (log entry 3), CYCLE_NEXT is the default of R118: all open goes to
channel 1, a closed channel N that is the highest goes to all open, and any other highest closed channel
goes to the channel above it, alone. -/
def Obligations.CycleNextDefault : Prop :=
  ∀ (c : Config) (r : Mask), c.Legal → c.cycleTable = [] →
    (c.cut r = 0#32 → c.cycleNext r = 1#32) ∧
    ∀ h : Nat, h < c.n → r.getLsbD h = true → (∀ k, h < k → k < c.n → r.getLsbD k = false) →
      c.cycleNext r = if h = c.n - 1 then 0#32 else 1#32 <<< (h + 1)

/-- R6, R118 and log entry 3 (the model's representation): every function from N-bit masks to N-bit masks
is CYCLE_NEXT of some table. -/
def Obligations.EveryCycleFunctionHasATable : Prop :=
  ∀ (c : Config) (f : Mask → Mask),
    ∃ table : List (Mask × Mask), ∀ r : Mask,
      Config.cycleNext { c with cycleTable := table } r = c.cut (f r)

/-! Receiving a word -/

/-- The model's choice, log entry 13: `exec` of a command in a step in which no word moves leaves the state
as it is. R17 and R146 say that a word which does not move has no effect; they do not speak of `exec`, and
the step never uses this case. -/
def Obligations.WordNotTakenHasNoEffect : Prop :=
  ∀ (i : Instr) (s : State), (s.input.cmdValid && s.cmdReady) = false → exec i s = .next s

/-- R96, R119: a legal header that does not end its command, of any of the nine, clears the dispatcher's
registers and leads to C_ARGS. -/
def Obligations.HeaderStartsACommand : Prop :=
  ∀ (i : Instr) (s : State),
    s.ctl = .idle → s.quiet = false → s.input.cmdValid = true → s.input.cmdLast = false →
    exec i s = .next { s with
      op := i.opcode, err := 0#8, nargs := 0#16, amask := 0#32, aval := 0#32, qflags := [], ctl := .args }

/-- R59, R66, R100: a header that ends a command of class LIST or NUM is answered with E_MISSING. -/
def Obligations.MissingArgumentAnswersError : Prop :=
  ∀ (i : Instr) (s : State), i ∈ [Instr.opn, .cls, .clsQ, .set, .setMbb] →
    s.ctl = .idle → s.quiet = false → s.input.cmdValid = true → s.input.cmdLast = true →
    exec i s = .next { s with
      op := i.opcode, err := 0#8, nargs := 0#16, amask := 0#32, aval := 0#32, qflags := [], ctl := .rsp
      rbuf := [0xF0020000#32], ridx := 0#16 }

/-- R10, R97, R102, R128: once an error is raised, an argument word of any of the nine commands is only
counted, and the last one loads the ERROR response of the first error. -/
def Obligations.FirstErrorWins : Prop :=
  ∀ (i : Instr) (s : State),
    s.ctl = .args → s.err ≠ 0#8 → s.input.cmdValid = true →
    exec i s = .next (
      if s.input.cmdLast then
        { s with
          nargs := argCount s.nargs, ctl := .rsp, ridx := 0#16
          rbuf := [BitVec.ofNat 32 (0xF0000000 + s.err.toNat * 2 ^ 16)] }
      else { s with nargs := argCount s.nargs })

/-- R98, R100, R101: an entry word that is marked, reserved, out of [1, N] or backwards raises the error
R98 gives, in R98's order, in all three commands of class LIST, and changes nothing else; as the last
word it loads the ERROR response. -/
def Obligations.BadEntryRaisesItsError : Prop :=
  ∀ (i : Instr) (s : State), i ∈ [Instr.opn, .cls, .clsQ] →
    s.ctl = .args → s.err = 0#8 → s.input.cmdValid = true →
    entryErr s.cfg.n s.input.cmdData s.input.cmdErr ≠ 0#8 →
    exec i s = .next (
      if s.input.cmdLast then
        { s with
          nargs := argCount s.nargs, ctl := .rsp, ridx := 0#16
          err := entryErr s.cfg.n s.input.cmdData s.input.cmdErr
          rbuf := [BitVec.ofNat 32
            (0xF0000000 + (entryErr s.cfg.n s.input.cmdData s.input.cmdErr).toNat * 2 ^ 16)] }
      else
        { s with
          nargs := argCount s.nargs
          err := entryErr s.cfg.n s.input.cmdData s.input.cmdErr })

/-- R98: a legal entry of an OPEN or a CLOSE, single or range, that does not end the command joins the
union mask and is counted, and nothing else changes. -/
def Obligations.EntryJoinsTheUnion : Prop :=
  ∀ (i : Instr) (s : State) (e : Entry), i ∈ [Instr.opn, .cls] →
    LegalEntryOffered s e → s.input.cmdLast = false →
    exec i s = .next { s with
      nargs := argCount s.nargs, amask := s.amask ||| maskOf (channels e.lo e.hi) }

/-- R98, R105: a legal entry of a Close-Query that does not end the command appends the flags of its
channels, ascending, where they fit, and raises E_TOO_LONG where they do not. -/
def Obligations.QueryEntryAppendsItsFlags : Prop :=
  ∀ (s : State) (e : Entry), LegalEntryOffered s e → s.input.cmdLast = false →
    exec .clsQ s = .next (
      if s.qflags.length + (e.hi - e.lo + 1) ≤ s.cfg.qMax then
        { s with
          nargs := argCount s.nargs, amask := s.amask ||| maskOf (channels e.lo e.hi)
          qflags := s.qflags ++ (channels e.lo e.hi).map (fun c => s.relay.getLsbD (c - 1)) }
      else { s with nargs := argCount s.nargs, err := 7#8 })

/-- R97, R61: the numeric word of a SET or SET_MBB that does not end the command: the first unmarked one
is the argument, a marked one is E_MALFORMED, and a second one is E_EXTRA, marked or not. -/
def Obligations.NumericWordIsTheArgument : Prop :=
  ∀ (i : Instr) (s : State), i ∈ [Instr.set, .setMbb] →
    s.ctl = .args → s.err = 0#8 → s.input.cmdValid = true → s.input.cmdLast = false →
    exec i s = .next (
      if s.nargs ≠ 0#16 then { s with nargs := argCount s.nargs, err := 5#8 }
      else if s.input.cmdErr = true then { s with nargs := 1#16, err := 3#8 }
      else { s with nargs := 1#16, aval := s.input.cmdData })

/-- R97, R100, R101: a second numeric word, or a marked one, that ends a SET or SET_MBB answers its error
and changes no relay. -/
def Obligations.BadNumericWordAnswersError : Prop :=
  ∀ (i : Instr) (s : State), i ∈ [Instr.set, .setMbb] →
    s.ctl = .args → s.err = 0#8 → s.input.cmdValid = true → s.input.cmdLast = true →
    (s.nargs ≠ 0#16 → exec i s = .next { s with
      nargs := argCount s.nargs, err := 5#8, ctl := .rsp, rbuf := [0xF0050000#32], ridx := 0#16 }) ∧
    (s.nargs = 0#16 → s.input.cmdErr = true → exec i s = .next { s with
      nargs := 1#16, err := 3#8, ctl := .rsp, rbuf := [0xF0030000#32], ridx := 0#16 })

/-- R59, R97: an argument word of a command of class NONE that does not end it, marked or not, is only
counted. -/
def Obligations.IgnoredWordIsOnlyCounted : Prop :=
  ∀ (i : Instr) (s : State), i ∈ [Instr.opnAll, .stateQ, .getQ, .ident] →
    s.ctl = .args → s.input.cmdValid = true → s.input.cmdLast = false →
    exec i s = .next { s with nargs := argCount s.nargs }

/-! What each command does at its last word -/

/-- R103, R77, R100: OPEN at its last entry opens the union of its entries in one phase of T_REL ticks
and waits in C_SEQ, from every state in which no sequence runs. -/
def Obligations.OpenStartsAtItsLastEntry : Prop :=
  ∀ (s : State) (e : Entry), LegalEntryOffered s e → s.input.cmdLast = true → s.seq = .idle →
    exec .opn s = .next { s with
      nargs := argCount s.nargs
      amask := s.amask ||| maskOf (channels e.lo e.hi)
      relay := s.relay &&& ~~~(s.cfg.cut (s.amask ||| maskOf (channels e.lo e.hi)))
      dly := BitVec.ofNat 16 s.cfg.tRel, seq := .busy, p2Valid := false, ctl := .seq }

/-- R104, R78, R100: CLOSE at its last entry closes the union of its entries in one phase of T_OP
ticks. -/
def Obligations.CloseStartsAtItsLastEntry : Prop :=
  ∀ (s : State) (e : Entry), LegalEntryOffered s e → s.input.cmdLast = true → s.seq = .idle →
    exec .cls s = .next { s with
      nargs := argCount s.nargs
      amask := s.amask ||| maskOf (channels e.lo e.hi)
      relay := s.relay ||| s.cfg.cut (s.amask ||| maskOf (channels e.lo e.hi))
      dly := BitVec.ofNat 16 s.cfg.tOp, seq := .busy, p2Valid := false, ctl := .seq }

/-- R105, R112, R113: CLOSE_Q at its last entry answers the flags, in list order, and changes no relay,
where the flags fit; where they do not it answers E_TOO_LONG. The length in the header is the number of
flags, for every QMAX of R6. -/
def Obligations.CloseQueryAnswersAtItsLastEntry : Prop :=
  ∀ (s : State) (e : Entry), LegalEntryOffered s e → s.input.cmdLast = true →
    s.cfg.qMax ≤ 65535 →
    let fs := s.qflags ++ (channels e.lo e.hi).map (fun c => s.relay.getLsbD (c - 1))
    exec .clsQ s = .next (
      if s.qflags.length + (e.hi - e.lo + 1) ≤ s.cfg.qMax then
        { s with
          nargs := argCount s.nargs, amask := s.amask ||| maskOf (channels e.lo e.hi), qflags := fs
          ctl := .rsp, ridx := 0#16
          rbuf := BitVec.ofNat 32 (0x10000000 + fs.length) ::
            fs.map (fun f => if f then 1#32 else 0#32) }
      else
        { s with
          nargs := argCount s.nargs, err := 7#8, ctl := .rsp, ridx := 0#16, rbuf := [0xF0070000#32] })

/-- R106, R77: OPEN_ALL at its last word opens every channel in one phase of T_REL ticks, whatever the
argument words. -/
def Obligations.OpenAllOpensEveryChannel : Prop :=
  ∀ s : State, LastPlainWord s → s.seq = .idle → s.cfg.cut s.relay = s.relay →
    exec .opnAll s = .next { plainReceived .opnAll s with
      relay := 0#32, dly := BitVec.ofNat 16 s.cfg.tRel, seq := .busy, p2Valid := false, ctl := .seq }

/-- R107, R112, R113: STATE_Q at its last word answers STR with the channel-list string: `(@`, the closed
channels in ascending order as decimals with commas between them, `)`, one ASCII code in each word. The
ASCII codes are log entry 11. -/
def Obligations.StateQueryAnswersItsString : Prop :=
  ∀ s : State, LastPlainWord s → s.cfg.n ≤ 32 →
    let closedOnes := ((List.range s.cfg.n).filter (fun k => s.relay.getLsbD k)).map (· + 1)
    let text := ['(', '@'] ++ List.intercalate [','] (closedOnes.map (Nat.toDigits 10)) ++ [')']
    exec .stateQ s = .next { plainReceived .stateQ s with
      ctl := .rsp, ridx := 0#16
      rbuf := BitVec.ofNat 32 (0x30000000 + text.length) ::
        text.map (fun ch => BitVec.ofNat 32 ch.toNat) }

/-- R110, R112, R113: GET_Q at its last word answers INT with the relay mask, whose bits of N and above
are 0. -/
def Obligations.GetQueryAnswersTheMask : Prop :=
  ∀ s : State, LastPlainWord s →
    exec .getQ s = .next { plainReceived .getQ s with
      ctl := .rsp, ridx := 0#16, rbuf := [0x20000001#32, s.relay] } ∧
    (s.cfg.cut s.relay = s.relay → ∀ k, s.cfg.n ≤ k → k < 32 → s.relay.getLsbD k = false)

/-- R111, R112, R113: IDENT at its last word answers IDENT with the identity bytes, one in each word. -/
def Obligations.IdentAnswersTheIdentity : Prop :=
  ∀ s : State, LastPlainWord s → s.cfg.identBytes.length ≤ 255 →
    exec .ident s = .next { plainReceived .ident s with
      ctl := .rsp, ridx := 0#16
      rbuf := BitVec.ofNat 32 (0x40000000 + s.cfg.identBytes.length) ::
        s.cfg.identBytes.map (fun b => BitVec.ofNat 32 b.toNat) }

/-- R108, R79: SET opens what the argument does not hold, for T_REL ticks, and holds the closing of the
argument as its second phase; the argument's bits of N and above are dropped. -/
def Obligations.SetOpensFirst : Prop :=
  ∀ (s : State) (v : Word), NumberOffered s v → s.seq = .idle →
    exec .set s = .next { s with
      nargs := 1#16, aval := v
      relay := s.relay &&& ~~~(s.relay &&& ~~~(v &&& s.cfg.valid))
      dly := BitVec.ofNat 16 s.cfg.tRel, seq := .busy
      p2Valid := true, p2Kind := .cls, p2Mask := v &&& s.cfg.valid, ctl := .seq }

/-- R109, R80: SET_MBB closes the argument, for T_OP ticks, and holds the opening of the other closed
channels as its second phase. -/
def Obligations.SetMbbClosesFirst : Prop :=
  ∀ (s : State) (v : Word), NumberOffered s v → s.seq = .idle →
    exec .setMbb s = .next { s with
      nargs := 1#16, aval := v
      relay := s.relay ||| (v &&& s.cfg.valid)
      dly := BitVec.ofNat 16 s.cfg.tOp, seq := .busy
      p2Valid := true, p2Kind := .opn, p2Mask := s.relay &&& ~~~(v &&& s.cfg.valid), ctl := .seq }

/-- R74, R131: a command that ends well while a sequence runs is the fault R74 asks for, in each of the
five commands that start one. No state reachable from reset is such a state. -/
def Obligations.StartWhileBusyFaults : Prop :=
  ∀ (s : State) (e : Entry) (v : Word), s.seq = .busy →
    (LegalEntryOffered s e → s.input.cmdLast = true →
      exec .opn s = .fault .startWhileBusy ∧ exec .cls s = .fault .startWhileBusy) ∧
    (LastPlainWord s → exec .opnAll s = .fault .startWhileBusy) ∧
    (NumberOffered s v →
      exec .set s = .fault .startWhileBusy ∧ exec .setMbb s = .fault .startWhileBusy)

/-- The frame of every command word (R96 to R101, R112): no command word writes the debouncer, the tick
counter or the manual-event registers, and only OPEN, CLOSE, OPEN_ALL, SET and SET_MBB, and only where they
start a sequence, write the relays and the sequencer. The model's choices in it: the environment's inputs
(`inputs`, `drawn`) are fields of State that no command word writes, log entry 1; the parameters (`cfg`) are
such a field, log entry 2; and `exec` where no word moves leaves the state as it is, log entry 13. -/
def Obligations.CommandWordFrame : Prop :=
  ∀ (i : Instr) (s t : State), exec i s = .next t →
    (t.now = s.now ∧ t.last = s.last ∧ t.acc = s.acc ∧ t.mev = s.mev ∧ t.mevStb = s.mevStb ∧
      t.cfg = s.cfg ∧ t.inputs = s.inputs ∧ t.drawn = s.drawn) ∧
    (i.mutating = false ∨ t.seq = s.seq →
      t.relay = s.relay ∧ t.seq = s.seq ∧ t.dly = s.dly ∧ t.p2Valid = s.p2Valid ∧
        t.p2Kind = s.p2Kind ∧ t.p2Mask = s.p2Mask)

/-! The Relay Bank -/

/-- R74: the four sequence starts, register by register, and the fault of a start while busy. -/
def Obligations.SequenceStartWritesTheFirstPhase : Prop :=
  ∀ (s : State) (m : Mask),
    (s.seq = .idle →
      s.rbStart (.opn m) = .next { s with
        relay := s.relay &&& ~~~(m &&& s.cfg.valid), dly := BitVec.ofNat 16 s.cfg.tRel
        seq := .busy, p2Valid := false } ∧
      s.rbStart (.cls m) = .next { s with
        relay := s.relay ||| (m &&& s.cfg.valid), dly := BitVec.ofNat 16 s.cfg.tOp
        seq := .busy, p2Valid := false } ∧
      s.rbStart (.setBbm m) = .next { s with
        relay := s.relay &&& ~~~(s.relay &&& ~~~(m &&& s.cfg.valid))
        dly := BitVec.ofNat 16 s.cfg.tRel, seq := .busy
        p2Valid := true, p2Kind := .cls, p2Mask := m &&& s.cfg.valid } ∧
      s.rbStart (.setMbb m) = .next { s with
        relay := s.relay ||| (m &&& s.cfg.valid), dly := BitVec.ofNat 16 s.cfg.tOp
        seq := .busy, p2Valid := true, p2Kind := .opn
        p2Mask := s.relay &&& ~~~(m &&& s.cfg.valid) }) ∧
    (s.seq = .busy → ∀ spec : SeqSpec, s.rbStart spec = .fault .startWhileBusy)

/-- R75, R79, R83: during a break-before-make set, with any ticks and any other inputs, the relays are
`s & t'` until the T_REL-th tick and `t'` from then on, so no state has a channel that is to open closed
together with a channel that is to close. R83 is the spec's inference from R79. -/
def Obligations.BreakBeforeMakeStates : Prop :=
  ∀ (s : State) (r t : Mask) (l rest : List Inputs), s.Sound → HoldsSequence (.setBbm t) r s →
    s.inputs = l ++ rest → noReset l = true → ticks l < s.cfg.tRel + s.cfg.tOp →
    ∃ z, run l.length s = .next z ∧ z.ctl = s.ctl ∧ z.seq = .busy ∧
      z.relay = (if ticks l < s.cfg.tRel then r &&& s.cfg.cut t else s.cfg.cut t) ∧
      (z.relay &&& (r &&& ~~~(s.cfg.cut t)) = 0#32 ∨ z.relay &&& (s.cfg.cut t &&& ~~~r) = 0#32)

/-- R75, R80, R84: during a make-before-break set the relays are `s | t'` until the T_OP-th tick and `t'`
from then on, so a channel in both stays closed throughout. R84 is the spec's inference from R80. -/
def Obligations.MakeBeforeBreakStates : Prop :=
  ∀ (s : State) (r t : Mask) (l rest : List Inputs), s.Sound → HoldsSequence (.setMbb t) r s →
    s.inputs = l ++ rest → noReset l = true → ticks l < s.cfg.tOp + s.cfg.tRel →
    ∃ z, run l.length s = .next z ∧ z.ctl = s.ctl ∧ z.seq = .busy ∧
      z.relay = (if ticks l < s.cfg.tOp then r ||| s.cfg.cut t else s.cfg.cut t) ∧
      z.relay &&& (r &&& s.cfg.cut t) = r &&& s.cfg.cut t

/-- R75: a last phase with `d` ticks to go runs for exactly `d` ticks, whatever else the inputs do:
before the `d`-th tick nothing of it but the counter moves, and with the `d`-th tick it ends, a command
with its ACK and a manual action back in C_IDLE. -/
def Obligations.PhaseEndsWithItsLastTick : Prop :=
  ∀ (s : State) (l rest : List Inputs), s.Sound → s.seq = .busy → s.p2Valid = false →
    s.inputs = l ++ rest → noReset l = true →
    (ticks l < s.dly.toNat →
      ∃ z, run l.length s = .next z ∧ z.seq = .busy ∧ z.ctl = s.ctl ∧ z.relay = s.relay ∧
        z.dly.toNat = s.dly.toNat - ticks l) ∧
    (Waits s.dly.toNat l →
      ∃ z, run l.length s = .next z ∧ z.seq = .idle ∧ z.dly = 0#16 ∧ z.relay = s.relay ∧
        (s.ctl = .seq → z.ctl = .rsp ∧ z.rbuf = [0x00000000#32] ∧ z.ridx = 0#16) ∧
        (s.ctl = .man → z.ctl = .idle ∧ z.rbuf = s.rbuf ∧ z.ridx = s.ridx))

/-- R20, R73: outside a reset, the relays change only by a phase write: a sequence starts in this step,
or the first phase of a set ends in it. -/
def Obligations.RelaysChangeOnlyByPhaseWrites : Prop :=
  ∀ s t : State, step s = .next t → s.input.rst = false → t.relay ≠ s.relay →
    (s.seq = .idle ∧ t.seq = .busy ∧
      ((s.ctl = .idle ∧ s.quiet = true) ∨
        ((s.ctl = .idle ∨ s.ctl = .args) ∧ s.input.cmdValid = true ∧ s.input.cmdLast = true))) ∨
    (s.seq = .busy ∧ t.seq = .busy ∧ s.input.tick = true ∧ s.dly = 1#16 ∧ s.p2Valid = true ∧
      t.p2Valid = false ∧
      t.relay = (match s.p2Kind with
        | .opn => s.relay &&& ~~~s.p2Mask
        | .cls => s.relay ||| s.p2Mask))

/-! The Button Debouncer -/

/-- R21, R86, R88, R89, R50: what every step outside a reset does to the debouncer, in every state of
`ctl`: the read empties the accumulator where it fires, then a tick adds the sample, stamps it with the
old time and counts. -/
def Obligations.DebouncerStep : Prop :=
  ∀ s t : State, step s = .next t → s.input.rst = false →
    t.now = (if s.input.tick then s.now + 1#32 else s.now) ∧
    t.last = (if s.input.tick = true ∧ s.input.btnRaw ≠ 0#2 then s.now else s.last) ∧
    t.acc = (if s.fires then 0#2 else s.acc) ||| (if s.input.tick then s.input.btnRaw else 0#2)

/-- R93 and R95, the spec's inferences: after a tick that samples a button, the events are quiet exactly
when W_DEB is 0, so a held button is not reported while it is held unless W_DEB is 0. -/
def Obligations.SampledButtonIsNotQuiet : Prop :=
  ∀ s t : State, step s = .next t → s.input.rst = false → s.input.tick = true →
    s.input.btnRaw ≠ 0#2 → (t.quiet = true ↔ s.cfg.wDeb = 0)

/-- R115, and R148, the spec's inference: events that the step does not report are not lost. -/
def Obligations.PendingEventsAreKept : Prop :=
  ∀ s t : State, step s = .next t → s.input.rst = false → s.fires = false →
    t.acc &&& s.acc = s.acc

/-- R87, and R91, the spec's inference: after the last asserted sample, while the block idles, the read
fires after exactly W_DEB quiet ticks: before them the events are not quiet, and in the step after the
W_DEB-th they are, and are consumed into `man_evt`. -/
def Obligations.PressIsReportedAfterTheWindow : Prop :=
  ∀ (s : State) (l rest : List Inputs), s.Sound → s.ctl = .idle → s.acc ≠ 0#2 →
    s.now = s.last + 1#32 → s.inputs = l ++ rest → noReset l = true →
    (∀ I ∈ l, I.btnRaw = 0#2 ∧ I.cmdValid = false) →
    (ticks l < s.cfg.wDeb →
      ∃ z, run l.length s = .next z ∧ z.ctl = .idle ∧ z.acc = s.acc ∧ z.quiet = false) ∧
    (ticks l = s.cfg.wDeb → (s.cfg.wDeb = 0 → l = []) →
      (∀ I, l.getLast? = some I → I.tick = true) →
      ∃ z, run l.length s = .next z ∧ z.ctl = .idle ∧ z.quiet = true ∧
        (z.input.rst = false →
          ∃ y, step z = .next y ∧ y.ctl = .man ∧ y.mev = s.acc ∧ y.mevStb = true))

/-! The control multiplexer -/

/-- R116, R117, R133: in C_IDLE a quiet event set goes before a command: no header moves, and Clear opens
every channel, Cycle, without Clear, starts a set to CYCLE_NEXT under CYCLE_POLICY. The dispatcher's
registers keep their values. -/
def Obligations.ManualActionGoesFirst : Prop :=
  ∀ s : State, s.Sound → s.ctl = .idle → s.quiet = true → s.input.rst = false →
    s.cmdReady = false ∧
    ∃ t, step s = .next t ∧ t.ctl = .man ∧ t.seq = .busy ∧ t.mev = s.acc ∧ t.mevStb = true ∧
      t.op = s.op ∧ t.err = s.err ∧ t.nargs = s.nargs ∧ t.amask = s.amask ∧ t.aval = s.aval ∧
      t.qflags = s.qflags ∧ t.rbuf = s.rbuf ∧ t.ridx = s.ridx ∧
      (s.acc.getLsbD 1 = true →
        t.relay = 0#32 ∧ t.dly.toNat = s.cfg.tRel ∧ t.p2Valid = false) ∧
      (s.acc.getLsbD 1 = false → s.cfg.cyclePolicy = .bbm →
        t.relay = s.relay &&& s.cfg.cycleNext s.relay ∧ t.dly.toNat = s.cfg.tRel ∧
          t.p2Valid = true ∧ t.p2Kind = .cls ∧ t.p2Mask = s.cfg.cycleNext s.relay) ∧
      (s.acc.getLsbD 1 = false → s.cfg.cyclePolicy = .mbb →
        t.relay = s.relay ||| s.cfg.cycleNext s.relay ∧ t.dly.toNat = s.cfg.tOp ∧
          t.p2Valid = true ∧ t.p2Kind = .opn ∧
          t.p2Mask = s.relay &&& ~~~(s.cfg.cycleNext s.relay))

/-- R117, R119: a manual action runs to C_IDLE without a response: Clear leaves every channel open after
T_REL ticks, Cycle leaves CYCLE_NEXT of the relay state after T_REL + T_OP ticks. -/
def Obligations.ManualActionRunsToIdle : Prop :=
  ∀ (s : State) (I : Inputs) (l rest : List Inputs),
    s.Sound → s.ctl = .idle → s.quiet = true → I.rst = false → s.inputs = I :: (l ++ rest) →
    Waits (if s.acc.getLsbD 1 then s.cfg.tRel else s.cfg.tRel + s.cfg.tOp) l →
    ∃ z, run (1 + l.length) s = .next z ∧ z.ctl = .idle ∧ z.seq = .idle ∧ z.rbuf = s.rbuf ∧
      z.relay = (if s.acc.getLsbD 1 then 0#32 else s.cfg.cycleNext s.relay)

/-- R119: the transitions of `ctl` outside a reset, and no other. -/
def Obligations.ControlTransitions : Prop :=
  ∀ s t : State, step s = .next t → s.input.rst = false →
    (s.ctl = .idle → (s.quiet = true → t.ctl = .man) ∧
      (s.quiet = false → s.input.cmdValid = false → t.ctl = .idle) ∧
      (s.quiet = false → s.input.cmdValid = true →
        (s.input.cmdLast = false → t.ctl = .args) ∧
        (s.input.cmdLast = true → t.ctl = .seq ∨ t.ctl = .rsp))) ∧
    (s.ctl = .args → (s.input.cmdValid = false → t.ctl = .args) ∧
      (s.input.cmdValid = true →
        (s.input.cmdLast = false → t.ctl = .args) ∧
        (s.input.cmdLast = true → t.ctl = .seq ∨ t.ctl = .rsp))) ∧
    (s.ctl = .seq → t.ctl = if s.input.tick = true ∧ s.dly = 1#16 ∧ s.p2Valid = false then .rsp else .seq) ∧
    (s.ctl = .man → t.ctl = if s.input.tick = true ∧ s.dly = 1#16 ∧ s.p2Valid = false then .idle else .man) ∧
    (s.ctl = .rsp →
      t.ctl = if s.input.rspReady = true ∧ s.ridx.toNat + 1 = s.rbuf.length then .idle else .rsp)

/-- R72, R46, and R85 and R150, the spec's inferences: outside a reset `busy` shows exactly whether the
sequencer is in a phase; no response word is offered while a phase runs, and no command word is taken while
a phase runs or a response waits. -/
def Obligations.NothingMovesWhileBusy : Prop :=
  ∀ (s : State) (rst : Bool), s.Invariants →
    ((s.outputs rst).busy = true ↔ rst = false ∧ s.seq = .busy) ∧
    (s.seq = .busy → (s.outputs rst).rspValid = false) ∧
    (s.seq = .busy ∨ (s.outputs rst).rspValid = true → (s.outputs rst).cmdReady = false)

/-- R123: `man_evt_stb` is 1 for exactly the one step after a read fires, and `man_evt` keeps the last
fired event set. -/
def Obligations.ManualEventOutputs : Prop :=
  ∀ s t : State, step s = .next t → s.input.rst = false →
    (t.outputs false).manEvtStb = s.fires ∧
    (t.outputs false).manEvt = (if s.fires then s.acc else (s.outputs false).manEvt)

/-! Runs of whole commands -/

/-- R103, R104, R106, R108, R109, R46: every well-formed mutating command, offered word by word with any
gaps, ticks and buttons, leaves the relays in its target state and has its ACK loaded when its delay has
passed, neither earlier nor later. -/
def Obligations.MutatingCommandRunsToItsAck : Prop :=
  ∀ (c : Command) (s : State) (l w rest : List Inputs),
    s.Sound → s.ctl = .idle → s.quiet = false →
    c.wellFormed s.cfg.n s.cfg.qMax = true → c.instr.mutating = true →
    s.inputs = l ++ w ++ rest → Delivers (encodeCommand c) l → Waits (c.delay s.cfg) w →
    (∀ k, l.length ≤ k → k < l.length + w.length → ∃ z, run k s = .next z ∧ z.ctl = .seq) ∧
    ∃ z, run (l.length + w.length) s = .next z ∧ z.ctl = .rsp ∧ z.seq = .idle ∧
      z.rbuf = [0x00000000#32] ∧ z.ridx = 0#16 ∧ z.relay = c.target s.cfg s.relay

/-- R105, R107, R110, R111, R112: every well-formed query, offered word by word, has its answer loaded
with its last word, and no relay changes. -/
def Obligations.QueryAnswersAtItsLastWord : Prop :=
  ∀ (c : Command) (s : State) (l rest : List Inputs),
    s.Sound → s.ctl = .idle → s.quiet = false →
    c.wellFormed s.cfg.n s.cfg.qMax = true → c.instr.mutating = false →
    s.inputs = l ++ rest → Delivers (encodeCommand c) l →
    ∃ z, run l.length s = .next z ∧ z.ctl = .rsp ∧ z.seq = .idle ∧ z.ridx = 0#16 ∧
      z.rbuf = answer s.cfg s.relay c ∧ z.relay = s.relay

/-- R56, R100, and R101, the spec's inference: every packet that is not the packet of a well-formed
command is consumed to its last word and answered with one ERROR response; no relay changes and no
sequence starts at any step of it. -/
def Obligations.IllFormedPacketAnswersError : Prop :=
  ∀ (ps : List PortWord) (s : State) (l rest : List Inputs),
    s.Sound → s.ctl = .idle → s.quiet = false → framed ps = true →
    (∀ c : Command, c.wellFormed s.cfg.n s.cfg.qMax = true → encodeCommand c ≠ ps) →
    s.inputs = l ++ rest → Delivers ps l →
    (∀ k, k ≤ l.length → ∃ z, run k s = .next z ∧ z.relay = s.relay ∧ z.seq = .idle) ∧
    ∃ (z : State) (e : Nat), run l.length s = .next z ∧ z.ctl = .rsp ∧ z.ridx = 0#16 ∧
      1 ≤ e ∧ e ≤ 7 ∧ z.rbuf = [BitVec.ofNat 32 (0xF0000000 + e * 2 ^ 16)]

/-- R57, R62, R96: a command whose header is not legal is consumed undecoded and answered with
E_OPCODE. -/
def Obligations.IllegalHeaderAnswersOpcodeError : Prop :=
  ∀ (h : PortWord) (ps : List PortWord) (s : State) (l rest : List Inputs),
    s.Sound → s.ctl = .idle → s.quiet = false → framed (h :: ps) = true →
    (∀ i : Instr, decodeHeader h.data h.err ≠ .ok i) →
    s.inputs = l ++ rest → Delivers (h :: ps) l →
    ∃ z, run l.length s = .next z ∧ z.ctl = .rsp ∧ z.ridx = 0#16 ∧ z.rbuf = [0xF0010000#32] ∧
      z.relay = s.relay ∧ z.seq = .idle ∧ z.op = h.data.extractLsb' 0 4 ∧ z.err = 1#8

/-- R63, R119, R122, and R129, the spec's inference: a response is taken word by word, in order and
complete, however the sink times its readiness, and `rsp_last` is 1 with its last word and with no other;
then the block is back in C_IDLE. -/
def Obligations.ResponseIsTakenInOrder : Prop :=
  ∀ (s : State) (l rest : List Inputs), s.Sound → s.ctl = .rsp → s.ridx = 0#16 →
    s.inputs = l ++ rest → noReset l = true → readies l = s.rbuf.length →
    (∃ I, l.getLast? = some I ∧ I.rspReady = true) →
    takenWords l.length s = s.rbuf.zipIdx.map (fun p => (p.1, decide (p.2 + 1 = s.rbuf.length))) ∧
    ∃ z, run l.length s = .next z ∧ z.ctl = .idle ∧ z.rbuf = [] ∧ z.ridx = 0#16 ∧
      z.relay = s.relay

/-- R152, the spec's inference: the step counts of every command, from C_IDLE with no event pending. -/
def Obligations.StepCounts : Prop :=
  ∀ (ps : List PortWord) (s : State) (m : Nat) (rest : List Inputs),
    s.Sound → s.ctl = .idle → s.acc = 0#2 → framed ps = true →
    s.inputs = backToBack ps m ++ rest →
    ((∀ c : Command, c.wellFormed s.cfg.n s.cfg.qMax = true → encodeCommand c ≠ ps) → 1 ≤ m →
      (∃ z, run ps.length s = .next z ∧ z.ctl = .rsp) ∧
      (∃ z, run (ps.length + 1) s = .next z ∧ z.ctl = .idle)) ∧
    (∀ c : Command, c.wellFormed s.cfg.n s.cfg.qMax = true → encodeCommand c = ps →
      (c.instr.mutating = false → (answer s.cfg s.relay c).length ≤ m →
        (∃ z, run ps.length s = .next z ∧ z.ctl = .rsp) ∧
        (∃ z, run (ps.length + (answer s.cfg s.relay c).length) s = .next z ∧ z.ctl = .idle)) ∧
      (c.instr.mutating = true → c.delay s.cfg + 1 ≤ m →
        (∃ z, run (ps.length + c.delay s.cfg) s = .next z ∧ z.ctl = .rsp) ∧
        (∃ z, run (ps.length + c.delay s.cfg + 1) s = .next z ∧ z.ctl = .idle)))

/-! Reset and outputs -/

/-- R140, in the terms of the model: with a legal configuration, a step with `rst = 1` gives RESET_STATE,
whatever the other registers and inputs hold. The model's choices in it: the order against the tests of R6
and R120 is log entry 5; that the parameters stand in the state and are kept is log entry 2; the list of
inputs and the counter `drawn` are log entry 1. -/
def Obligations.ResetGivesResetState : Prop :=
  ∀ (s : State) (I : Inputs) (rest : List Inputs), s.cfg.Legal → s.inputs = I :: rest → I.rst = true →
    step s = .next {
      relay := 0#32, now := 0#32, last := 0#32, acc := 0#2, seq := .idle, dly := 0#16
      p2Valid := false, p2Kind := .opn, p2Mask := 0#32, ctl := .idle, op := 0#4, err := 0#8
      nargs := 0#16, amask := 0#32, aval := 0#32, qflags := [], rbuf := [], ridx := 0#16
      mev := 0#2, mevStb := false, cfg := s.cfg, inputs := rest, drawn := s.drawn }

/-- R70, R141, R145, and R144, the spec's inference: while `rst = 1` every output is 0; otherwise
`relay_out` shows the relays; and in RESET_STATE every channel is open, nothing is offered and a header can
be taken. That outputs are seen once in each step, and not between clock edges as R141 has it, is the
model's choice, log entry 10. -/
def Obligations.OutputsInAndAfterReset : Prop :=
  (∀ s : State,
    s.outputs true = ⟨0#32, false, false, 0#32, false, false, 0#2, false⟩ ∧
    (s.outputs false).relayOut = s.relay) ∧
  ∀ (cfg : Config) (l : List Inputs) (k : Nat),
    (State.resetWith cfg l k).outputs false = ⟨0#32, true, false, 0#32, false, false, 0#2, false⟩

/-! The step and its invariants -/

/-- A step runs the decoded command: in C_IDLE, where no read fires and a legal header is on the port,
and in C_ARGS, where `op` names the command, the step is `exec` of that command on the state with
`mev_stb` cleared, then the debouncer's part of the step and the use of the step's inputs
(`State.endStep`). What `exec` is here is log entry 7. -/
def Obligations.StepRunsTheDecodedCommand : Prop :=
  ∀ (s : State) (i : Instr), s.Sound → s.input.rst = false → s.input.cmdValid = true →
    ((s.ctl = .idle ∧ s.quiet = false ∧ decodeHeader s.input.cmdData s.input.cmdErr = .ok i) ∨
      (s.ctl = .args ∧ instrOfOpcode s.op = some i)) →
    step s = (match exec i { s with mevStb := false } with
      | .next t => .next (s.endStep s.acc t)
      | .fault f => .fault f
      | .refused r => .refused r)

/-- R6, R131, and R120, the spec's inference: where a step stops: a configuration outside R6 is refused,
and with a legal one and no reset a state that breaks an invariant of R120 is a fault. (The fault of a
mask with a bit of N or above is log entry 4, the order of the tests log entry 5.) -/
def Obligations.WhereAStepStops : Prop :=
  ∀ s : State,
    (step s = .refused .illegalConfig ↔ ¬ s.cfg.Legal) ∧
    (s.cfg.Legal → s.input.rst = false → ¬ s.Invariants → step s = .fault .invariantBroken) ∧
    (s.cfg.Legal → s.input.rst = false → s.Invariants → ¬ s.Representable →
      step s = .fault .notAState)

/-- R120, the spec's inference, with the registers' widths and R96's consequence for `op` and `err`
(`State.Sound`): every step keeps it. The widths are log entry 4, the known command log entry 6. -/
def Obligations.StepKeepsSoundness : Prop :=
  ∀ s t : State, s.Sound → step s = .next t → t.Sound

/-- The state after reset is sound, waits for work in C_IDLE, and has no error raised and no response
offered, for every legal configuration, and so it is with `State.reset`: it meets what StepKeepsSoundness
and ResponsesStayWellFormed keep. The parameters `State.reset` carries are log entry 2. -/
def Obligations.ResetIsSound : Prop :=
  (∀ (cfg : Config) (l : List Inputs) (k : Nat), cfg.Legal →
    let s := State.resetWith cfg l k
    s.Sound ∧ s.ErrKnown ∧ s.ResponseKnown ∧ s.err = 0#8 ∧ s.ctl = .idle ∧ s.rspValid = false) ∧
  State.reset.Sound ∧ State.reset.ErrKnown ∧ State.reset.ResponseKnown ∧ State.reset.err = 0#8 ∧
    State.reset.ctl = .idle ∧ State.reset.rspValid = false

/-- R131, and R125, the spec's inference: a sound state always steps: the block never faults and never
refuses, whatever the environment drives. -/
def Obligations.SoundStatesAlwaysStep : Prop :=
  ∀ s : State, s.Sound → ∃ t, step s = .next t

/-- R30: no command and no step changes the parameters. -/
def Obligations.ParametersNeverChange : Prop :=
  (∀ s t : State, step s = .next t → t.cfg = s.cfg) ∧
  (∀ (i : Instr) (s t : State), exec i s = .next t → t.cfg = s.cfg)

/-- R64, R65, R66: every step keeps it that what is offered is a response of the produced kinds, with its
length, its reserved field and its error code as the rules say, and that `err` is a code of R66. -/
def Obligations.ResponsesStayWellFormed : Prop :=
  ∀ s t : State, s.Sound → s.ErrKnown → s.ResponseKnown → step s = .next t →
    t.ErrKnown ∧ t.ResponseKnown

/-- R107, and R7 and R113's bound, the spec's inferences: the State-Query string has at most STRMAX bytes,
and every response, ACK, FLAGS, INT, STR, IDENT and ERROR, fits RBUF_MAX words. -/
def Obligations.ResponsesFit : Prop :=
  ∀ (c : Config) (r : Mask) (fs : List Bool) (code : BitVec 8), c.Legal → fs.length ≤ c.qMax →
    (fmt c r).length ≤ c.strMax ∧ ackRsp.length ≤ c.rbufMax ∧ (flagsRsp fs).length ≤ c.rbufMax ∧
    (intRsp r).length ≤ c.rbufMax ∧ (strRsp c r).length ≤ c.rbufMax ∧
    (identRsp c).length ≤ c.rbufMax ∧ (errorRsp code).length ≤ c.rbufMax
end

