-- ==== Sys2Proof/Laws/State.lean ====
section
/-! SUPPORT. The small lemmas of State: one for each field and each named update, true by unfolding the
update once. -/

namespace Sys2Proof.Machine

/-! The phase write, by its kind (R73) -/

@[simp] theorem State.phaseWrite_opn_relay (m : Mask) (s : State) :
    (s.phaseWrite .opn m).relay = s.relay &&& ~~~m := rfl
@[simp] theorem State.phaseWrite_cls_relay (m : Mask) (s : State) :
    (s.phaseWrite .cls m).relay = s.relay ||| m := rfl
@[simp] theorem State.phaseWrite_opn_dly (m : Mask) (s : State) :
    (s.phaseWrite .opn m).dly = BitVec.ofNat 16 s.cfg.tRel := rfl
@[simp] theorem State.phaseWrite_cls_dly (m : Mask) (s : State) :
    (s.phaseWrite .cls m).dly = BitVec.ofNat 16 s.cfg.tOp := rfl
@[simp] theorem State.holdSecond_none_p2Valid (s : State) : (s.holdSecond none).p2Valid = false := rfl
@[simp] theorem State.holdSecond_some_p2Valid (k : Kind) (m : Mask) (s : State) :
    (s.holdSecond (some (k, m))).p2Valid = true := rfl
@[simp] theorem State.holdSecond_some_p2Kind (k : Kind) (m : Mask) (s : State) :
    (s.holdSecond (some (k, m))).p2Kind = k := rfl
@[simp] theorem State.holdSecond_some_p2Mask (k : Kind) (m : Mask) (s : State) :
    (s.holdSecond (some (k, m))).p2Mask = m := rfl

/-! The debouncer's part (R86, R89) and the inputs -/

@[simp] theorem State.tickPart_acc (I : Inputs) (a : BitVec 2) (n : BitVec 32) (s : State) :
    (s.tickPart I a n).acc = if I.tick then a ||| I.btnRaw else a := by
  unfold State.tickPart State.debSample
  by_cases ht : I.tick = true
  · by_cases hb : I.btnRaw = 0#2 <;> simp [ht, hb]
  · simp [ht]
@[simp] theorem State.tickPart_last (I : Inputs) (a : BitVec 2) (n : BitVec 32) (s : State) :
    (s.tickPart I a n).last = if I.tick ∧ I.btnRaw ≠ 0#2 then n else s.last := by
  unfold State.tickPart State.debSample
  by_cases ht : I.tick = true <;> by_cases hb : I.btnRaw = 0#2 <;> simp [ht, hb]
@[simp] theorem State.tickPart_now (I : Inputs) (a : BitVec 2) (n : BitVec 32) (s : State) :
    (s.tickPart I a n).now = if I.tick then n + 1#32 else s.now := by
  unfold State.tickPart State.debSample
  by_cases ht : I.tick = true <;> by_cases hb : I.btnRaw = 0#2 <;> simp [ht, hb]
theorem State.input_cons (s : State) (I : Inputs) (l : List Inputs) (h : s.inputs = I :: l) :
    s.input = I := by simp [State.input, h]
@[simp] theorem State.nextInput_inputs (s : State) : s.nextInput.inputs = s.inputs.tail := by
  unfold State.nextInput
  split <;> simp_all

/-! `State.nextInput` -/

@[simp] theorem State.nextInput_relay (s : State) : s.nextInput.relay = s.relay := by unfold State.nextInput; split <;> rfl
@[simp] theorem State.nextInput_now (s : State) : s.nextInput.now = s.now := by unfold State.nextInput; split <;> rfl
@[simp] theorem State.nextInput_last (s : State) : s.nextInput.last = s.last := by unfold State.nextInput; split <;> rfl
@[simp] theorem State.nextInput_acc (s : State) : s.nextInput.acc = s.acc := by unfold State.nextInput; split <;> rfl
@[simp] theorem State.nextInput_seq (s : State) : s.nextInput.seq = s.seq := by unfold State.nextInput; split <;> rfl
@[simp] theorem State.nextInput_dly (s : State) : s.nextInput.dly = s.dly := by unfold State.nextInput; split <;> rfl
@[simp] theorem State.nextInput_p2Valid (s : State) : s.nextInput.p2Valid = s.p2Valid := by unfold State.nextInput; split <;> rfl
@[simp] theorem State.nextInput_p2Kind (s : State) : s.nextInput.p2Kind = s.p2Kind := by unfold State.nextInput; split <;> rfl
@[simp] theorem State.nextInput_p2Mask (s : State) : s.nextInput.p2Mask = s.p2Mask := by unfold State.nextInput; split <;> rfl
@[simp] theorem State.nextInput_ctl (s : State) : s.nextInput.ctl = s.ctl := by unfold State.nextInput; split <;> rfl
@[simp] theorem State.nextInput_op (s : State) : s.nextInput.op = s.op := by unfold State.nextInput; split <;> rfl
@[simp] theorem State.nextInput_err (s : State) : s.nextInput.err = s.err := by unfold State.nextInput; split <;> rfl
@[simp] theorem State.nextInput_nargs (s : State) : s.nextInput.nargs = s.nargs := by unfold State.nextInput; split <;> rfl
@[simp] theorem State.nextInput_amask (s : State) : s.nextInput.amask = s.amask := by unfold State.nextInput; split <;> rfl
@[simp] theorem State.nextInput_aval (s : State) : s.nextInput.aval = s.aval := by unfold State.nextInput; split <;> rfl
@[simp] theorem State.nextInput_qflags (s : State) : s.nextInput.qflags = s.qflags := by unfold State.nextInput; split <;> rfl
@[simp] theorem State.nextInput_rbuf (s : State) : s.nextInput.rbuf = s.rbuf := by unfold State.nextInput; split <;> rfl
@[simp] theorem State.nextInput_ridx (s : State) : s.nextInput.ridx = s.ridx := by unfold State.nextInput; split <;> rfl
@[simp] theorem State.nextInput_mev (s : State) : s.nextInput.mev = s.mev := by unfold State.nextInput; split <;> rfl
@[simp] theorem State.nextInput_mevStb (s : State) : s.nextInput.mevStb = s.mevStb := by unfold State.nextInput; split <;> rfl
@[simp] theorem State.nextInput_cfg (s : State) : s.nextInput.cfg = s.cfg := by unfold State.nextInput; split <;> rfl

/-! `State.phaseWrite` -/

@[simp] theorem State.phaseWrite_now (k : Kind) (m : Mask) (s : State) : (s.phaseWrite k m).now = s.now := by cases k <;> rfl
@[simp] theorem State.phaseWrite_last (k : Kind) (m : Mask) (s : State) : (s.phaseWrite k m).last = s.last := by cases k <;> rfl
@[simp] theorem State.phaseWrite_acc (k : Kind) (m : Mask) (s : State) : (s.phaseWrite k m).acc = s.acc := by cases k <;> rfl
@[simp] theorem State.phaseWrite_p2Valid (k : Kind) (m : Mask) (s : State) : (s.phaseWrite k m).p2Valid = s.p2Valid := by cases k <;> rfl
@[simp] theorem State.phaseWrite_p2Kind (k : Kind) (m : Mask) (s : State) : (s.phaseWrite k m).p2Kind = s.p2Kind := by cases k <;> rfl
@[simp] theorem State.phaseWrite_p2Mask (k : Kind) (m : Mask) (s : State) : (s.phaseWrite k m).p2Mask = s.p2Mask := by cases k <;> rfl
@[simp] theorem State.phaseWrite_ctl (k : Kind) (m : Mask) (s : State) : (s.phaseWrite k m).ctl = s.ctl := by cases k <;> rfl
@[simp] theorem State.phaseWrite_op (k : Kind) (m : Mask) (s : State) : (s.phaseWrite k m).op = s.op := by cases k <;> rfl
@[simp] theorem State.phaseWrite_err (k : Kind) (m : Mask) (s : State) : (s.phaseWrite k m).err = s.err := by cases k <;> rfl
@[simp] theorem State.phaseWrite_nargs (k : Kind) (m : Mask) (s : State) : (s.phaseWrite k m).nargs = s.nargs := by cases k <;> rfl
@[simp] theorem State.phaseWrite_amask (k : Kind) (m : Mask) (s : State) : (s.phaseWrite k m).amask = s.amask := by cases k <;> rfl
@[simp] theorem State.phaseWrite_aval (k : Kind) (m : Mask) (s : State) : (s.phaseWrite k m).aval = s.aval := by cases k <;> rfl
@[simp] theorem State.phaseWrite_qflags (k : Kind) (m : Mask) (s : State) : (s.phaseWrite k m).qflags = s.qflags := by cases k <;> rfl
@[simp] theorem State.phaseWrite_rbuf (k : Kind) (m : Mask) (s : State) : (s.phaseWrite k m).rbuf = s.rbuf := by cases k <;> rfl
@[simp] theorem State.phaseWrite_ridx (k : Kind) (m : Mask) (s : State) : (s.phaseWrite k m).ridx = s.ridx := by cases k <;> rfl
@[simp] theorem State.phaseWrite_mev (k : Kind) (m : Mask) (s : State) : (s.phaseWrite k m).mev = s.mev := by cases k <;> rfl
@[simp] theorem State.phaseWrite_mevStb (k : Kind) (m : Mask) (s : State) : (s.phaseWrite k m).mevStb = s.mevStb := by cases k <;> rfl
@[simp] theorem State.phaseWrite_cfg (k : Kind) (m : Mask) (s : State) : (s.phaseWrite k m).cfg = s.cfg := by cases k <;> rfl
@[simp] theorem State.phaseWrite_inputs (k : Kind) (m : Mask) (s : State) : (s.phaseWrite k m).inputs = s.inputs := by cases k <;> rfl
@[simp] theorem State.phaseWrite_drawn (k : Kind) (m : Mask) (s : State) : (s.phaseWrite k m).drawn = s.drawn := by cases k <;> rfl
@[simp] theorem State.phaseWrite_seq (k : Kind) (m : Mask) (s : State) : (s.phaseWrite k m).seq = .busy := by cases k <;> rfl

/-! `State.holdSecond` -/

@[simp] theorem State.holdSecond_relay (o : Option (Kind × Mask)) (s : State) : (s.holdSecond o).relay = s.relay := by rcases o with _ | ⟨k, m⟩ <;> rfl
@[simp] theorem State.holdSecond_now (o : Option (Kind × Mask)) (s : State) : (s.holdSecond o).now = s.now := by rcases o with _ | ⟨k, m⟩ <;> rfl
@[simp] theorem State.holdSecond_last (o : Option (Kind × Mask)) (s : State) : (s.holdSecond o).last = s.last := by rcases o with _ | ⟨k, m⟩ <;> rfl
@[simp] theorem State.holdSecond_acc (o : Option (Kind × Mask)) (s : State) : (s.holdSecond o).acc = s.acc := by rcases o with _ | ⟨k, m⟩ <;> rfl
@[simp] theorem State.holdSecond_seq (o : Option (Kind × Mask)) (s : State) : (s.holdSecond o).seq = s.seq := by rcases o with _ | ⟨k, m⟩ <;> rfl
@[simp] theorem State.holdSecond_dly (o : Option (Kind × Mask)) (s : State) : (s.holdSecond o).dly = s.dly := by rcases o with _ | ⟨k, m⟩ <;> rfl
@[simp] theorem State.holdSecond_ctl (o : Option (Kind × Mask)) (s : State) : (s.holdSecond o).ctl = s.ctl := by rcases o with _ | ⟨k, m⟩ <;> rfl
@[simp] theorem State.holdSecond_op (o : Option (Kind × Mask)) (s : State) : (s.holdSecond o).op = s.op := by rcases o with _ | ⟨k, m⟩ <;> rfl
@[simp] theorem State.holdSecond_err (o : Option (Kind × Mask)) (s : State) : (s.holdSecond o).err = s.err := by rcases o with _ | ⟨k, m⟩ <;> rfl
@[simp] theorem State.holdSecond_nargs (o : Option (Kind × Mask)) (s : State) : (s.holdSecond o).nargs = s.nargs := by rcases o with _ | ⟨k, m⟩ <;> rfl
@[simp] theorem State.holdSecond_amask (o : Option (Kind × Mask)) (s : State) : (s.holdSecond o).amask = s.amask := by rcases o with _ | ⟨k, m⟩ <;> rfl
@[simp] theorem State.holdSecond_aval (o : Option (Kind × Mask)) (s : State) : (s.holdSecond o).aval = s.aval := by rcases o with _ | ⟨k, m⟩ <;> rfl
@[simp] theorem State.holdSecond_qflags (o : Option (Kind × Mask)) (s : State) : (s.holdSecond o).qflags = s.qflags := by rcases o with _ | ⟨k, m⟩ <;> rfl
@[simp] theorem State.holdSecond_rbuf (o : Option (Kind × Mask)) (s : State) : (s.holdSecond o).rbuf = s.rbuf := by rcases o with _ | ⟨k, m⟩ <;> rfl
@[simp] theorem State.holdSecond_ridx (o : Option (Kind × Mask)) (s : State) : (s.holdSecond o).ridx = s.ridx := by rcases o with _ | ⟨k, m⟩ <;> rfl
@[simp] theorem State.holdSecond_mev (o : Option (Kind × Mask)) (s : State) : (s.holdSecond o).mev = s.mev := by rcases o with _ | ⟨k, m⟩ <;> rfl
@[simp] theorem State.holdSecond_mevStb (o : Option (Kind × Mask)) (s : State) : (s.holdSecond o).mevStb = s.mevStb := by rcases o with _ | ⟨k, m⟩ <;> rfl
@[simp] theorem State.holdSecond_cfg (o : Option (Kind × Mask)) (s : State) : (s.holdSecond o).cfg = s.cfg := by rcases o with _ | ⟨k, m⟩ <;> rfl
@[simp] theorem State.holdSecond_inputs (o : Option (Kind × Mask)) (s : State) : (s.holdSecond o).inputs = s.inputs := by rcases o with _ | ⟨k, m⟩ <;> rfl
@[simp] theorem State.holdSecond_drawn (o : Option (Kind × Mask)) (s : State) : (s.holdSecond o).drawn = s.drawn := by rcases o with _ | ⟨k, m⟩ <;> rfl

/-! `State.debSample` -/

@[simp] theorem State.debSample_relay (b a : BitVec 2) (n : BitVec 32) (s : State) : (s.debSample b a n).relay = s.relay := by unfold State.debSample; split <;> rfl
@[simp] theorem State.debSample_now (b a : BitVec 2) (n : BitVec 32) (s : State) : (s.debSample b a n).now = s.now := by unfold State.debSample; split <;> rfl
@[simp] theorem State.debSample_seq (b a : BitVec 2) (n : BitVec 32) (s : State) : (s.debSample b a n).seq = s.seq := by unfold State.debSample; split <;> rfl
@[simp] theorem State.debSample_dly (b a : BitVec 2) (n : BitVec 32) (s : State) : (s.debSample b a n).dly = s.dly := by unfold State.debSample; split <;> rfl
@[simp] theorem State.debSample_p2Valid (b a : BitVec 2) (n : BitVec 32) (s : State) : (s.debSample b a n).p2Valid = s.p2Valid := by unfold State.debSample; split <;> rfl
@[simp] theorem State.debSample_p2Kind (b a : BitVec 2) (n : BitVec 32) (s : State) : (s.debSample b a n).p2Kind = s.p2Kind := by unfold State.debSample; split <;> rfl
@[simp] theorem State.debSample_p2Mask (b a : BitVec 2) (n : BitVec 32) (s : State) : (s.debSample b a n).p2Mask = s.p2Mask := by unfold State.debSample; split <;> rfl
@[simp] theorem State.debSample_ctl (b a : BitVec 2) (n : BitVec 32) (s : State) : (s.debSample b a n).ctl = s.ctl := by unfold State.debSample; split <;> rfl
@[simp] theorem State.debSample_op (b a : BitVec 2) (n : BitVec 32) (s : State) : (s.debSample b a n).op = s.op := by unfold State.debSample; split <;> rfl
@[simp] theorem State.debSample_err (b a : BitVec 2) (n : BitVec 32) (s : State) : (s.debSample b a n).err = s.err := by unfold State.debSample; split <;> rfl
@[simp] theorem State.debSample_nargs (b a : BitVec 2) (n : BitVec 32) (s : State) : (s.debSample b a n).nargs = s.nargs := by unfold State.debSample; split <;> rfl
@[simp] theorem State.debSample_amask (b a : BitVec 2) (n : BitVec 32) (s : State) : (s.debSample b a n).amask = s.amask := by unfold State.debSample; split <;> rfl
@[simp] theorem State.debSample_aval (b a : BitVec 2) (n : BitVec 32) (s : State) : (s.debSample b a n).aval = s.aval := by unfold State.debSample; split <;> rfl
@[simp] theorem State.debSample_qflags (b a : BitVec 2) (n : BitVec 32) (s : State) : (s.debSample b a n).qflags = s.qflags := by unfold State.debSample; split <;> rfl
@[simp] theorem State.debSample_rbuf (b a : BitVec 2) (n : BitVec 32) (s : State) : (s.debSample b a n).rbuf = s.rbuf := by unfold State.debSample; split <;> rfl
@[simp] theorem State.debSample_ridx (b a : BitVec 2) (n : BitVec 32) (s : State) : (s.debSample b a n).ridx = s.ridx := by unfold State.debSample; split <;> rfl
@[simp] theorem State.debSample_mev (b a : BitVec 2) (n : BitVec 32) (s : State) : (s.debSample b a n).mev = s.mev := by unfold State.debSample; split <;> rfl
@[simp] theorem State.debSample_mevStb (b a : BitVec 2) (n : BitVec 32) (s : State) : (s.debSample b a n).mevStb = s.mevStb := by unfold State.debSample; split <;> rfl
@[simp] theorem State.debSample_cfg (b a : BitVec 2) (n : BitVec 32) (s : State) : (s.debSample b a n).cfg = s.cfg := by unfold State.debSample; split <;> rfl
@[simp] theorem State.debSample_inputs (b a : BitVec 2) (n : BitVec 32) (s : State) : (s.debSample b a n).inputs = s.inputs := by unfold State.debSample; split <;> rfl
@[simp] theorem State.debSample_drawn (b a : BitVec 2) (n : BitVec 32) (s : State) : (s.debSample b a n).drawn = s.drawn := by unfold State.debSample; split <;> rfl

/-! `State.tickPart` -/

@[simp] theorem State.tickPart_relay (I : Inputs) (a : BitVec 2) (n : BitVec 32) (s : State) : (s.tickPart I a n).relay = s.relay := by unfold State.tickPart State.debSample; (repeat' split) <;> rfl
@[simp] theorem State.tickPart_seq (I : Inputs) (a : BitVec 2) (n : BitVec 32) (s : State) : (s.tickPart I a n).seq = s.seq := by unfold State.tickPart State.debSample; (repeat' split) <;> rfl
@[simp] theorem State.tickPart_dly (I : Inputs) (a : BitVec 2) (n : BitVec 32) (s : State) : (s.tickPart I a n).dly = s.dly := by unfold State.tickPart State.debSample; (repeat' split) <;> rfl
@[simp] theorem State.tickPart_p2Valid (I : Inputs) (a : BitVec 2) (n : BitVec 32) (s : State) : (s.tickPart I a n).p2Valid = s.p2Valid := by unfold State.tickPart State.debSample; (repeat' split) <;> rfl
@[simp] theorem State.tickPart_p2Kind (I : Inputs) (a : BitVec 2) (n : BitVec 32) (s : State) : (s.tickPart I a n).p2Kind = s.p2Kind := by unfold State.tickPart State.debSample; (repeat' split) <;> rfl
@[simp] theorem State.tickPart_p2Mask (I : Inputs) (a : BitVec 2) (n : BitVec 32) (s : State) : (s.tickPart I a n).p2Mask = s.p2Mask := by unfold State.tickPart State.debSample; (repeat' split) <;> rfl
@[simp] theorem State.tickPart_ctl (I : Inputs) (a : BitVec 2) (n : BitVec 32) (s : State) : (s.tickPart I a n).ctl = s.ctl := by unfold State.tickPart State.debSample; (repeat' split) <;> rfl
@[simp] theorem State.tickPart_op (I : Inputs) (a : BitVec 2) (n : BitVec 32) (s : State) : (s.tickPart I a n).op = s.op := by unfold State.tickPart State.debSample; (repeat' split) <;> rfl
@[simp] theorem State.tickPart_err (I : Inputs) (a : BitVec 2) (n : BitVec 32) (s : State) : (s.tickPart I a n).err = s.err := by unfold State.tickPart State.debSample; (repeat' split) <;> rfl
@[simp] theorem State.tickPart_nargs (I : Inputs) (a : BitVec 2) (n : BitVec 32) (s : State) : (s.tickPart I a n).nargs = s.nargs := by unfold State.tickPart State.debSample; (repeat' split) <;> rfl
@[simp] theorem State.tickPart_amask (I : Inputs) (a : BitVec 2) (n : BitVec 32) (s : State) : (s.tickPart I a n).amask = s.amask := by unfold State.tickPart State.debSample; (repeat' split) <;> rfl
@[simp] theorem State.tickPart_aval (I : Inputs) (a : BitVec 2) (n : BitVec 32) (s : State) : (s.tickPart I a n).aval = s.aval := by unfold State.tickPart State.debSample; (repeat' split) <;> rfl
@[simp] theorem State.tickPart_qflags (I : Inputs) (a : BitVec 2) (n : BitVec 32) (s : State) : (s.tickPart I a n).qflags = s.qflags := by unfold State.tickPart State.debSample; (repeat' split) <;> rfl
@[simp] theorem State.tickPart_rbuf (I : Inputs) (a : BitVec 2) (n : BitVec 32) (s : State) : (s.tickPart I a n).rbuf = s.rbuf := by unfold State.tickPart State.debSample; (repeat' split) <;> rfl
@[simp] theorem State.tickPart_ridx (I : Inputs) (a : BitVec 2) (n : BitVec 32) (s : State) : (s.tickPart I a n).ridx = s.ridx := by unfold State.tickPart State.debSample; (repeat' split) <;> rfl
@[simp] theorem State.tickPart_mev (I : Inputs) (a : BitVec 2) (n : BitVec 32) (s : State) : (s.tickPart I a n).mev = s.mev := by unfold State.tickPart State.debSample; (repeat' split) <;> rfl
@[simp] theorem State.tickPart_mevStb (I : Inputs) (a : BitVec 2) (n : BitVec 32) (s : State) : (s.tickPart I a n).mevStb = s.mevStb := by unfold State.tickPart State.debSample; (repeat' split) <;> rfl
@[simp] theorem State.tickPart_cfg (I : Inputs) (a : BitVec 2) (n : BitVec 32) (s : State) : (s.tickPart I a n).cfg = s.cfg := by unfold State.tickPart State.debSample; (repeat' split) <;> rfl
@[simp] theorem State.tickPart_inputs (I : Inputs) (a : BitVec 2) (n : BitVec 32) (s : State) : (s.tickPart I a n).inputs = s.inputs := by unfold State.tickPart State.debSample; (repeat' split) <;> rfl
@[simp] theorem State.tickPart_drawn (I : Inputs) (a : BitVec 2) (n : BitVec 32) (s : State) : (s.tickPart I a n).drawn = s.drawn := by unfold State.tickPart State.debSample; (repeat' split) <;> rfl

/-! `State.respond` -/

@[simp] theorem State.respond_relay (l : List Word) (s : State) : (s.respond l).relay = s.relay := rfl
@[simp] theorem State.respond_now (l : List Word) (s : State) : (s.respond l).now = s.now := rfl
@[simp] theorem State.respond_last (l : List Word) (s : State) : (s.respond l).last = s.last := rfl
@[simp] theorem State.respond_acc (l : List Word) (s : State) : (s.respond l).acc = s.acc := rfl
@[simp] theorem State.respond_seq (l : List Word) (s : State) : (s.respond l).seq = s.seq := rfl
@[simp] theorem State.respond_dly (l : List Word) (s : State) : (s.respond l).dly = s.dly := rfl
@[simp] theorem State.respond_p2Valid (l : List Word) (s : State) : (s.respond l).p2Valid = s.p2Valid := rfl
@[simp] theorem State.respond_p2Kind (l : List Word) (s : State) : (s.respond l).p2Kind = s.p2Kind := rfl
@[simp] theorem State.respond_p2Mask (l : List Word) (s : State) : (s.respond l).p2Mask = s.p2Mask := rfl
@[simp] theorem State.respond_op (l : List Word) (s : State) : (s.respond l).op = s.op := rfl
@[simp] theorem State.respond_err (l : List Word) (s : State) : (s.respond l).err = s.err := rfl
@[simp] theorem State.respond_nargs (l : List Word) (s : State) : (s.respond l).nargs = s.nargs := rfl
@[simp] theorem State.respond_amask (l : List Word) (s : State) : (s.respond l).amask = s.amask := rfl
@[simp] theorem State.respond_aval (l : List Word) (s : State) : (s.respond l).aval = s.aval := rfl
@[simp] theorem State.respond_qflags (l : List Word) (s : State) : (s.respond l).qflags = s.qflags := rfl
@[simp] theorem State.respond_mev (l : List Word) (s : State) : (s.respond l).mev = s.mev := rfl
@[simp] theorem State.respond_mevStb (l : List Word) (s : State) : (s.respond l).mevStb = s.mevStb := rfl
@[simp] theorem State.respond_cfg (l : List Word) (s : State) : (s.respond l).cfg = s.cfg := rfl
@[simp] theorem State.respond_inputs (l : List Word) (s : State) : (s.respond l).inputs = s.inputs := rfl
@[simp] theorem State.respond_drawn (l : List Word) (s : State) : (s.respond l).drawn = s.drawn := rfl
@[simp] theorem State.respond_rbuf (l : List Word) (s : State) : (s.respond l).rbuf = l := rfl
@[simp] theorem State.respond_ridx (l : List Word) (s : State) : (s.respond l).ridx = 0#16 := rfl
@[simp] theorem State.respond_ctl (l : List Word) (s : State) : (s.respond l).ctl = .rsp := rfl

/-! `State.takeWord` -/

@[simp] theorem State.takeWord_relay (s : State) : s.takeWord.relay = s.relay := by unfold State.takeWord; split <;> rfl
@[simp] theorem State.takeWord_now (s : State) : s.takeWord.now = s.now := by unfold State.takeWord; split <;> rfl
@[simp] theorem State.takeWord_last (s : State) : s.takeWord.last = s.last := by unfold State.takeWord; split <;> rfl
@[simp] theorem State.takeWord_acc (s : State) : s.takeWord.acc = s.acc := by unfold State.takeWord; split <;> rfl
@[simp] theorem State.takeWord_seq (s : State) : s.takeWord.seq = s.seq := by unfold State.takeWord; split <;> rfl
@[simp] theorem State.takeWord_dly (s : State) : s.takeWord.dly = s.dly := by unfold State.takeWord; split <;> rfl
@[simp] theorem State.takeWord_p2Valid (s : State) : s.takeWord.p2Valid = s.p2Valid := by unfold State.takeWord; split <;> rfl
@[simp] theorem State.takeWord_p2Kind (s : State) : s.takeWord.p2Kind = s.p2Kind := by unfold State.takeWord; split <;> rfl
@[simp] theorem State.takeWord_p2Mask (s : State) : s.takeWord.p2Mask = s.p2Mask := by unfold State.takeWord; split <;> rfl
@[simp] theorem State.takeWord_op (s : State) : s.takeWord.op = s.op := by unfold State.takeWord; split <;> rfl
@[simp] theorem State.takeWord_err (s : State) : s.takeWord.err = s.err := by unfold State.takeWord; split <;> rfl
@[simp] theorem State.takeWord_nargs (s : State) : s.takeWord.nargs = s.nargs := by unfold State.takeWord; split <;> rfl
@[simp] theorem State.takeWord_amask (s : State) : s.takeWord.amask = s.amask := by unfold State.takeWord; split <;> rfl
@[simp] theorem State.takeWord_aval (s : State) : s.takeWord.aval = s.aval := by unfold State.takeWord; split <;> rfl
@[simp] theorem State.takeWord_qflags (s : State) : s.takeWord.qflags = s.qflags := by unfold State.takeWord; split <;> rfl
@[simp] theorem State.takeWord_mev (s : State) : s.takeWord.mev = s.mev := by unfold State.takeWord; split <;> rfl
@[simp] theorem State.takeWord_mevStb (s : State) : s.takeWord.mevStb = s.mevStb := by unfold State.takeWord; split <;> rfl
@[simp] theorem State.takeWord_cfg (s : State) : s.takeWord.cfg = s.cfg := by unfold State.takeWord; split <;> rfl
@[simp] theorem State.takeWord_inputs (s : State) : s.takeWord.inputs = s.inputs := by unfold State.takeWord; split <;> rfl
@[simp] theorem State.takeWord_drawn (s : State) : s.takeWord.drawn = s.drawn := by unfold State.takeWord; split <;> rfl

/-! `State.raise` -/

@[simp] theorem State.raise_relay (c : ErrCode) (s : State) : (s.raise c).relay = s.relay := by unfold State.raise; split <;> rfl
@[simp] theorem State.raise_now (c : ErrCode) (s : State) : (s.raise c).now = s.now := by unfold State.raise; split <;> rfl
@[simp] theorem State.raise_last (c : ErrCode) (s : State) : (s.raise c).last = s.last := by unfold State.raise; split <;> rfl
@[simp] theorem State.raise_acc (c : ErrCode) (s : State) : (s.raise c).acc = s.acc := by unfold State.raise; split <;> rfl
@[simp] theorem State.raise_seq (c : ErrCode) (s : State) : (s.raise c).seq = s.seq := by unfold State.raise; split <;> rfl
@[simp] theorem State.raise_dly (c : ErrCode) (s : State) : (s.raise c).dly = s.dly := by unfold State.raise; split <;> rfl
@[simp] theorem State.raise_p2Valid (c : ErrCode) (s : State) : (s.raise c).p2Valid = s.p2Valid := by unfold State.raise; split <;> rfl
@[simp] theorem State.raise_p2Kind (c : ErrCode) (s : State) : (s.raise c).p2Kind = s.p2Kind := by unfold State.raise; split <;> rfl
@[simp] theorem State.raise_p2Mask (c : ErrCode) (s : State) : (s.raise c).p2Mask = s.p2Mask := by unfold State.raise; split <;> rfl
@[simp] theorem State.raise_ctl (c : ErrCode) (s : State) : (s.raise c).ctl = s.ctl := by unfold State.raise; split <;> rfl
@[simp] theorem State.raise_op (c : ErrCode) (s : State) : (s.raise c).op = s.op := by unfold State.raise; split <;> rfl
@[simp] theorem State.raise_nargs (c : ErrCode) (s : State) : (s.raise c).nargs = s.nargs := by unfold State.raise; split <;> rfl
@[simp] theorem State.raise_amask (c : ErrCode) (s : State) : (s.raise c).amask = s.amask := by unfold State.raise; split <;> rfl
@[simp] theorem State.raise_aval (c : ErrCode) (s : State) : (s.raise c).aval = s.aval := by unfold State.raise; split <;> rfl
@[simp] theorem State.raise_qflags (c : ErrCode) (s : State) : (s.raise c).qflags = s.qflags := by unfold State.raise; split <;> rfl
@[simp] theorem State.raise_rbuf (c : ErrCode) (s : State) : (s.raise c).rbuf = s.rbuf := by unfold State.raise; split <;> rfl
@[simp] theorem State.raise_ridx (c : ErrCode) (s : State) : (s.raise c).ridx = s.ridx := by unfold State.raise; split <;> rfl
@[simp] theorem State.raise_mev (c : ErrCode) (s : State) : (s.raise c).mev = s.mev := by unfold State.raise; split <;> rfl
@[simp] theorem State.raise_mevStb (c : ErrCode) (s : State) : (s.raise c).mevStb = s.mevStb := by unfold State.raise; split <;> rfl
@[simp] theorem State.raise_cfg (c : ErrCode) (s : State) : (s.raise c).cfg = s.cfg := by unfold State.raise; split <;> rfl
@[simp] theorem State.raise_inputs (c : ErrCode) (s : State) : (s.raise c).inputs = s.inputs := by unfold State.raise; split <;> rfl
@[simp] theorem State.raise_drawn (c : ErrCode) (s : State) : (s.raise c).drawn = s.drawn := by unfold State.raise; split <;> rfl

/-! `State.beginCommand` -/

@[simp] theorem State.beginCommand_relay (o : BitVec 4) (e : BitVec 8) (s : State) : (s.beginCommand o e).relay = s.relay := rfl
@[simp] theorem State.beginCommand_now (o : BitVec 4) (e : BitVec 8) (s : State) : (s.beginCommand o e).now = s.now := rfl
@[simp] theorem State.beginCommand_last (o : BitVec 4) (e : BitVec 8) (s : State) : (s.beginCommand o e).last = s.last := rfl
@[simp] theorem State.beginCommand_acc (o : BitVec 4) (e : BitVec 8) (s : State) : (s.beginCommand o e).acc = s.acc := rfl
@[simp] theorem State.beginCommand_seq (o : BitVec 4) (e : BitVec 8) (s : State) : (s.beginCommand o e).seq = s.seq := rfl
@[simp] theorem State.beginCommand_dly (o : BitVec 4) (e : BitVec 8) (s : State) : (s.beginCommand o e).dly = s.dly := rfl
@[simp] theorem State.beginCommand_p2Valid (o : BitVec 4) (e : BitVec 8) (s : State) : (s.beginCommand o e).p2Valid = s.p2Valid := rfl
@[simp] theorem State.beginCommand_p2Kind (o : BitVec 4) (e : BitVec 8) (s : State) : (s.beginCommand o e).p2Kind = s.p2Kind := rfl
@[simp] theorem State.beginCommand_p2Mask (o : BitVec 4) (e : BitVec 8) (s : State) : (s.beginCommand o e).p2Mask = s.p2Mask := rfl
@[simp] theorem State.beginCommand_ctl (o : BitVec 4) (e : BitVec 8) (s : State) : (s.beginCommand o e).ctl = s.ctl := rfl
@[simp] theorem State.beginCommand_rbuf (o : BitVec 4) (e : BitVec 8) (s : State) : (s.beginCommand o e).rbuf = s.rbuf := rfl
@[simp] theorem State.beginCommand_ridx (o : BitVec 4) (e : BitVec 8) (s : State) : (s.beginCommand o e).ridx = s.ridx := rfl
@[simp] theorem State.beginCommand_mev (o : BitVec 4) (e : BitVec 8) (s : State) : (s.beginCommand o e).mev = s.mev := rfl
@[simp] theorem State.beginCommand_mevStb (o : BitVec 4) (e : BitVec 8) (s : State) : (s.beginCommand o e).mevStb = s.mevStb := rfl
@[simp] theorem State.beginCommand_cfg (o : BitVec 4) (e : BitVec 8) (s : State) : (s.beginCommand o e).cfg = s.cfg := rfl
@[simp] theorem State.beginCommand_inputs (o : BitVec 4) (e : BitVec 8) (s : State) : (s.beginCommand o e).inputs = s.inputs := rfl
@[simp] theorem State.beginCommand_drawn (o : BitVec 4) (e : BitVec 8) (s : State) : (s.beginCommand o e).drawn = s.drawn := rfl
@[simp] theorem State.beginCommand_op (o : BitVec 4) (e : BitVec 8) (s : State) : (s.beginCommand o e).op = o := rfl
@[simp] theorem State.beginCommand_err (o : BitVec 4) (e : BitVec 8) (s : State) : (s.beginCommand o e).err = e := rfl
@[simp] theorem State.beginCommand_nargs (o : BitVec 4) (e : BitVec 8) (s : State) : (s.beginCommand o e).nargs = 0#16 := rfl
@[simp] theorem State.beginCommand_amask (o : BitVec 4) (e : BitVec 8) (s : State) : (s.beginCommand o e).amask = 0#32 := rfl
@[simp] theorem State.beginCommand_aval (o : BitVec 4) (e : BitVec 8) (s : State) : (s.beginCommand o e).aval = 0#32 := rfl
@[simp] theorem State.beginCommand_qflags (o : BitVec 4) (e : BitVec 8) (s : State) : (s.beginCommand o e).qflags = [] := rfl

/-! `State.countArg` -/

@[simp] theorem State.countArg_relay (s : State) : s.countArg.relay = s.relay := by unfold State.countArg; split <;> rfl
@[simp] theorem State.countArg_now (s : State) : s.countArg.now = s.now := by unfold State.countArg; split <;> rfl
@[simp] theorem State.countArg_last (s : State) : s.countArg.last = s.last := by unfold State.countArg; split <;> rfl
@[simp] theorem State.countArg_acc (s : State) : s.countArg.acc = s.acc := by unfold State.countArg; split <;> rfl
@[simp] theorem State.countArg_seq (s : State) : s.countArg.seq = s.seq := by unfold State.countArg; split <;> rfl
@[simp] theorem State.countArg_dly (s : State) : s.countArg.dly = s.dly := by unfold State.countArg; split <;> rfl
@[simp] theorem State.countArg_p2Valid (s : State) : s.countArg.p2Valid = s.p2Valid := by unfold State.countArg; split <;> rfl
@[simp] theorem State.countArg_p2Kind (s : State) : s.countArg.p2Kind = s.p2Kind := by unfold State.countArg; split <;> rfl
@[simp] theorem State.countArg_p2Mask (s : State) : s.countArg.p2Mask = s.p2Mask := by unfold State.countArg; split <;> rfl
@[simp] theorem State.countArg_ctl (s : State) : s.countArg.ctl = s.ctl := by unfold State.countArg; split <;> rfl
@[simp] theorem State.countArg_op (s : State) : s.countArg.op = s.op := by unfold State.countArg; split <;> rfl
@[simp] theorem State.countArg_err (s : State) : s.countArg.err = s.err := by unfold State.countArg; split <;> rfl
@[simp] theorem State.countArg_amask (s : State) : s.countArg.amask = s.amask := by unfold State.countArg; split <;> rfl
@[simp] theorem State.countArg_aval (s : State) : s.countArg.aval = s.aval := by unfold State.countArg; split <;> rfl
@[simp] theorem State.countArg_qflags (s : State) : s.countArg.qflags = s.qflags := by unfold State.countArg; split <;> rfl
@[simp] theorem State.countArg_rbuf (s : State) : s.countArg.rbuf = s.rbuf := by unfold State.countArg; split <;> rfl
@[simp] theorem State.countArg_ridx (s : State) : s.countArg.ridx = s.ridx := by unfold State.countArg; split <;> rfl
@[simp] theorem State.countArg_mev (s : State) : s.countArg.mev = s.mev := by unfold State.countArg; split <;> rfl
@[simp] theorem State.countArg_mevStb (s : State) : s.countArg.mevStb = s.mevStb := by unfold State.countArg; split <;> rfl
@[simp] theorem State.countArg_cfg (s : State) : s.countArg.cfg = s.cfg := by unfold State.countArg; split <;> rfl
@[simp] theorem State.countArg_inputs (s : State) : s.countArg.inputs = s.inputs := by unfold State.countArg; split <;> rfl
@[simp] theorem State.countArg_drawn (s : State) : s.countArg.drawn = s.drawn := by unfold State.countArg; split <;> rfl

/-! `State.useEntry` -/

@[simp] theorem State.useEntry_relay (b : Bool) (e : Entry) (s : State) : (s.useEntry b e).relay = s.relay := by unfold State.useEntry State.raise; (repeat' split) <;> rfl
@[simp] theorem State.useEntry_now (b : Bool) (e : Entry) (s : State) : (s.useEntry b e).now = s.now := by unfold State.useEntry State.raise; (repeat' split) <;> rfl
@[simp] theorem State.useEntry_last (b : Bool) (e : Entry) (s : State) : (s.useEntry b e).last = s.last := by unfold State.useEntry State.raise; (repeat' split) <;> rfl
@[simp] theorem State.useEntry_acc (b : Bool) (e : Entry) (s : State) : (s.useEntry b e).acc = s.acc := by unfold State.useEntry State.raise; (repeat' split) <;> rfl
@[simp] theorem State.useEntry_seq (b : Bool) (e : Entry) (s : State) : (s.useEntry b e).seq = s.seq := by unfold State.useEntry State.raise; (repeat' split) <;> rfl
@[simp] theorem State.useEntry_dly (b : Bool) (e : Entry) (s : State) : (s.useEntry b e).dly = s.dly := by unfold State.useEntry State.raise; (repeat' split) <;> rfl
@[simp] theorem State.useEntry_p2Valid (b : Bool) (e : Entry) (s : State) : (s.useEntry b e).p2Valid = s.p2Valid := by unfold State.useEntry State.raise; (repeat' split) <;> rfl
@[simp] theorem State.useEntry_p2Kind (b : Bool) (e : Entry) (s : State) : (s.useEntry b e).p2Kind = s.p2Kind := by unfold State.useEntry State.raise; (repeat' split) <;> rfl
@[simp] theorem State.useEntry_p2Mask (b : Bool) (e : Entry) (s : State) : (s.useEntry b e).p2Mask = s.p2Mask := by unfold State.useEntry State.raise; (repeat' split) <;> rfl
@[simp] theorem State.useEntry_ctl (b : Bool) (e : Entry) (s : State) : (s.useEntry b e).ctl = s.ctl := by unfold State.useEntry State.raise; (repeat' split) <;> rfl
@[simp] theorem State.useEntry_op (b : Bool) (e : Entry) (s : State) : (s.useEntry b e).op = s.op := by unfold State.useEntry State.raise; (repeat' split) <;> rfl
@[simp] theorem State.useEntry_nargs (b : Bool) (e : Entry) (s : State) : (s.useEntry b e).nargs = s.nargs := by unfold State.useEntry State.raise; (repeat' split) <;> rfl
@[simp] theorem State.useEntry_aval (b : Bool) (e : Entry) (s : State) : (s.useEntry b e).aval = s.aval := by unfold State.useEntry State.raise; (repeat' split) <;> rfl
@[simp] theorem State.useEntry_rbuf (b : Bool) (e : Entry) (s : State) : (s.useEntry b e).rbuf = s.rbuf := by unfold State.useEntry State.raise; (repeat' split) <;> rfl
@[simp] theorem State.useEntry_ridx (b : Bool) (e : Entry) (s : State) : (s.useEntry b e).ridx = s.ridx := by unfold State.useEntry State.raise; (repeat' split) <;> rfl
@[simp] theorem State.useEntry_mev (b : Bool) (e : Entry) (s : State) : (s.useEntry b e).mev = s.mev := by unfold State.useEntry State.raise; (repeat' split) <;> rfl
@[simp] theorem State.useEntry_mevStb (b : Bool) (e : Entry) (s : State) : (s.useEntry b e).mevStb = s.mevStb := by unfold State.useEntry State.raise; (repeat' split) <;> rfl
@[simp] theorem State.useEntry_cfg (b : Bool) (e : Entry) (s : State) : (s.useEntry b e).cfg = s.cfg := by unfold State.useEntry State.raise; (repeat' split) <;> rfl
@[simp] theorem State.useEntry_inputs (b : Bool) (e : Entry) (s : State) : (s.useEntry b e).inputs = s.inputs := by unfold State.useEntry State.raise; (repeat' split) <;> rfl
@[simp] theorem State.useEntry_drawn (b : Bool) (e : Entry) (s : State) : (s.useEntry b e).drawn = s.drawn := by unfold State.useEntry State.raise; (repeat' split) <;> rfl

end Sys2Proof.Machine
end

