-- ==== Sys2Proof/Laws/Ops.lean ====
section
/-! SUPPORT. For each shared operation, once, everything it can do; and the equations of a run. -/

namespace Sys2Proof.Machine

/-! Runs -/

theorem run_zero (s : State) : run 0 s = .next s := rfl

theorem run_succ_eq (k : Nat) (s : State) :
    run (k + 1) s = match step s with
      | .next t => run k t
      | .fault f => .fault f
      | .refused r => .refused r := rfl

theorem coreRun_next {M : Host.Core} {s t : M.State} (h : M.step s = .next t) (k : Nat) :
    M.run (k + 1) s = M.run k t := by
  simp only [Host.Core.run, h]

theorem coreRun_fault {M : Host.Core} {s : M.State} {f : M.Fault} (h : M.step s = .fault f) (k : Nat) :
    M.run (k + 1) s = .fault f := by
  simp only [Host.Core.run, h]

theorem coreRun_refused {M : Host.Core} {s : M.State} {r : M.Refusal} (h : M.step s = .refused r)
    (k : Nat) : M.run (k + 1) s = .refused r := by
  simp only [Host.Core.run, h]

/-- A run is the host's run of the core. -/
theorem run_eq_core_run (k : Nat) (s : State) : run k s = Host.Core.run Sys2Proof.core k s := by
  induction k generalizing s with
  | zero => rfl
  | succ k ih =>
    rw [run_succ_eq]
    cases h : step s with
    | next t => exact (ih t).trans (coreRun_next (M := Sys2Proof.core) h k).symm
    | fault f => exact (coreRun_fault (M := Sys2Proof.core) h k).symm
    | refused r => exact (coreRun_refused (M := Sys2Proof.core) h k).symm

theorem run_succ {s t : State} (h : step s = .next t) (k : Nat) : run (k + 1) s = run k t := by
  rw [run_succ_eq, h]

theorem run_one {s t : State} (h : step s = .next t) : run 1 s = .next t :=
  run_succ h 0

theorem run_add {s t : State} {j : Nat} (h : run j s = .next t) (k : Nat) : run (j + k) s = run k t := by
  induction j generalizing s with
  | zero =>
    cases h
    rw [Nat.zero_add]
  | succ j ih =>
    cases hs : step s with
    | next u =>
      rw [run_succ hs] at h
      rw [show j + 1 + k = j + k + 1 by omega, run_succ hs]
      exact ih h
    | fault f =>
      rw [run_succ_eq, hs] at h
      cases h
    | refused f =>
      rw [run_succ_eq, hs] at h
      cases h

/-! The Relay Bank -/

/-- What a sequence start can do (R74). -/
theorem rbStart_idle {s : State} (h : s.seq = .idle) (spec : SeqSpec) :
    s.rbStart spec = .next ((s.phaseWrite (spec.first s.cfg s.relay).1 (spec.first s.cfg s.relay).2).holdSecond
      (spec.second s.cfg s.relay)) := by
  unfold State.rbStart
  rw [h]

theorem rbStart_busy {s : State} (h : s.seq = .busy) (spec : SeqSpec) :
    s.rbStart spec = .fault .startWhileBusy := by
  unfold State.rbStart
  rw [h]

/-- If a sequence start answers a next state, the sequencer was idle and the state is this one. -/
theorem rbStart_next {s t : State} {spec : SeqSpec} (h : s.rbStart spec = .next t) :
    s.seq = .idle ∧
      t = (s.phaseWrite (spec.first s.cfg s.relay).1 (spec.first s.cfg s.relay).2).holdSecond
        (spec.second s.cfg s.relay) := by
  cases hs : s.seq with
  | idle =>
    rw [rbStart_idle hs] at h
    cases h
    exact ⟨rfl, rfl⟩
  | busy =>
    rw [rbStart_busy hs] at h
    cases h

theorem startCmd_idle {s : State} (h : s.seq = .idle) (spec : SeqSpec) :
    s.startCmd spec = .next { (s.phaseWrite (spec.first s.cfg s.relay).1
      (spec.first s.cfg s.relay).2).holdSecond (spec.second s.cfg s.relay) with ctl := .seq } := by
  unfold State.startCmd
  rw [rbStart_idle h]

theorem startCmd_busy {s : State} (h : s.seq = .busy) (spec : SeqSpec) :
    s.startCmd spec = .fault .startWhileBusy := by
  unfold State.startCmd
  rw [rbStart_busy h]

/-- If a command's start answers a next state, a sequence started and `ctl` waits for it. -/
theorem startCmd_next {s t : State} {spec : SeqSpec} (h : s.startCmd spec = .next t) :
    s.seq = .idle ∧ ∃ u, s.rbStart spec = .next u ∧ t = { u with ctl := .seq } := by
  unfold State.startCmd at h
  split at h
  · rename_i u hu
    cases h
    exact ⟨(rbStart_next hu).1, u, hu, rfl⟩
  · cases h
  · cases h

/-- If a manual action answers a next state, its sequence started and `ctl` waits for it (R117). -/
theorem manual_next {s t : State} {ev : BitVec 2} (h : s.manual ev = .next t) :
    s.seq = .idle ∧ ∃ u, s.rbStart (manualSpec ev s) = .next u ∧
      t = { u with ctl := .man, mev := ev, mevStb := true } := by
  unfold State.manual at h
  split at h
  · rename_i u hu
    cases h
    exact ⟨(rbStart_next hu).1, u, hu, rfl⟩
  · cases h
  · cases h

/-- What the sequencer can do in a step (R75). -/
theorem rbAdvance_cases (tick : Bool) (s : State) :
    (s.seq = .idle ∧ s.rbAdvance tick = (s, false)) ∨
    (s.seq = .busy ∧ tick = false ∧ s.rbAdvance tick = (s, false)) ∨
    (s.seq = .busy ∧ tick = true ∧ 1 < s.dly.toNat ∧
      s.rbAdvance tick = ({ s with dly := s.dly - 1#16 }, false)) ∨
    (s.seq = .busy ∧ tick = true ∧ ¬ 1 < s.dly.toNat ∧ s.p2Valid = true ∧
      s.rbAdvance tick = ({ s.phaseWrite s.p2Kind s.p2Mask with p2Valid := false }, false)) ∨
    (s.seq = .busy ∧ tick = true ∧ ¬ 1 < s.dly.toNat ∧ s.p2Valid = false ∧
      s.rbAdvance tick = ({ s with seq := .idle, dly := 0#16 }, true)) := by
  unfold State.rbAdvance
  by_cases hd : 1 < s.dly.toNat <;> cases hs : s.seq <;> cases tick <;> cases hv : s.p2Valid <;>
    simp [hd]

/-! Receiving a word -/

/-- The rule of a command's argument words (R97). -/
def argRule : Instr → Inputs → State → State
  | .opn => State.entryArg false
  | .cls => State.entryArg false
  | .clsQ => State.entryArg true
  | .opnAll => State.ignoredArg
  | .stateQ => State.ignoredArg
  | .set => State.numberArg
  | .setMbb => State.numberArg
  | .getQ => State.ignoredArg
  | .ident => State.ignoredArg

/-- What a command does at its end (R100). -/
def action : Instr → State → Result
  | .opn => fun t => t.startCmd (.opn t.amask)
  | .cls => fun t => t.startCmd (.cls t.amask)
  | .clsQ => fun t => .next (t.respond (flagsRsp t.qflags))
  | .opnAll => fun t => t.startCmd (.opn t.cfg.valid)
  | .stateQ => fun t => .next (t.respond (strRsp t.cfg t.relay))
  | .set => fun t => t.startCmd (.setBbm t.aval)
  | .setMbb => fun t => t.startCmd (.setMbb t.aval)
  | .getQ => fun t => .next (t.respond (intRsp t.relay))
  | .ident => fun t => .next (t.respond (identRsp t.cfg))

/-- Every command is a reception with its own opcode, class, argument rule and action. -/
theorem exec_eq_receive (i : Instr) (s : State) :
    exec i s = s.receive i.opcode i.argClass (argRule i) (action i) := by
  cases i <;> rfl

/-- The state after the word of the step is received, before the command's end (R96, R97). -/
def received (i : Instr) (s : State) : State :=
  if s.ctl = .idle then s.beginCommand i.opcode 0#8 else s.argWord (argRule i)

/-- What a command word can do (R96, R97, R100). -/
theorem exec_cases (i : Instr) (s : State) :
    (s.accepts = false ∧ exec i s = .next s) ∨
    (s.accepts = true ∧ s.input.cmdLast = false ∧ exec i s = .next { received i s with ctl := .args }) ∨
    (s.accepts = true ∧ s.input.cmdLast = true ∧ (received i s).finalErr i.argClass ≠ 0#8 ∧
      exec i s = .next ((received i s).respond (errorRsp ((received i s).finalErr i.argClass)))) ∨
    (s.accepts = true ∧ s.input.cmdLast = true ∧ (received i s).finalErr i.argClass = 0#8 ∧
      exec i s = action i (received i s)) := by
  rw [exec_eq_receive]
  unfold State.receive
  cases ha : s.accepts
  · simp
  · cases hl : s.input.cmdLast
    · simp [received]
    · by_cases he : (received i s).finalErr i.argClass = 0#8
      · refine .inr (.inr (.inr ⟨rfl, rfl, he, ?_⟩))
        show (received i s).finish i.argClass (action i) = _
        unfold State.finish
        rw [if_neg (by simp [he])]
      · refine .inr (.inr (.inl ⟨rfl, rfl, he, ?_⟩))
        show (received i s).finish i.argClass (action i) = _
        unfold State.finish
        rw [if_pos he]

/-- If a command's action answers a next state, it is a response or a started sequence. -/
theorem action_next {i : Instr} {s t : State} (h : action i s = .next t) :
    (i.mutating = false ∧ ∃ l, t = s.respond l) ∨
    (i.mutating = true ∧ s.seq = .idle ∧ ∃ spec u, s.rbStart spec = .next u ∧
      t = { u with ctl := .seq }) := by
  cases i with
  | clsQ | stateQ | getQ | ident =>
    cases h
    exact .inl ⟨rfl, _, rfl⟩
  | opn | cls | opnAll | set | setMbb =>
    obtain ⟨hs, u, hu, ht⟩ := startCmd_next h
    exact .inr ⟨rfl, hs, _, u, hu, ht⟩

theorem raise_frame (c : ErrCode) (s : State) : s.raise c = { s with err := (s.raise c).err } := by
  unfold State.raise
  split <;> rfl

/-- An entry word writes `err`, `amask` and `qflags` alone (R98). -/
theorem entryArg_frame (b : Bool) (I : Inputs) (s : State) :
    s.entryArg b I = { s with
      err := (s.entryArg b I).err, amask := (s.entryArg b I).amask
      qflags := (s.entryArg b I).qflags } := by
  unfold State.entryArg
  split
  · rw [raise_frame]
  · unfold State.useEntry State.raise
    (repeat' split) <;> rfl

/-- A numeric word writes `err` and `aval` alone (R97). -/
theorem numberArg_frame (I : Inputs) (s : State) :
    s.numberArg I = { s with err := (s.numberArg I).err, aval := (s.numberArg I).aval } := by
  unfold State.numberArg
  split
  · rw [raise_frame]
  · split
    · rw [raise_frame]
    · rfl

/-- What an argument word can do to the dispatcher's registers: everything else keeps its value. -/
theorem argRule_frame (i : Instr) (I : Inputs) (s : State) :
    argRule i I s = { s with
      err := (argRule i I s).err, amask := (argRule i I s).amask
      aval := (argRule i I s).aval, qflags := (argRule i I s).qflags } := by
  cases i with
  | opn | cls | clsQ =>
    dsimp only [argRule]
    rw [entryArg_frame]
  | set | setMbb =>
    dsimp only [argRule]
    rw [numberArg_frame]
  | opnAll | stateQ | getQ | ident => rfl

theorem countArg_frame (s : State) : s.countArg = { s with nargs := s.countArg.nargs } := by
  unfold State.countArg
  split <;> rfl

/-- Receiving a word writes the dispatcher's registers alone. -/
theorem received_frame (i : Instr) (s : State) :
    received i s = { s with
      op := (received i s).op, err := (received i s).err, nargs := (received i s).nargs
      amask := (received i s).amask, aval := (received i s).aval
      qflags := (received i s).qflags } := by
  unfold received
  split
  · rfl
  · unfold State.argWord
    rw [countArg_frame]
    split
    · rw [argRule_frame]
    · rfl

/-! The step -/

/-- Whatever a step answers next comes from a legal configuration, by a reset or by a running step. -/
theorem step_next {s t : State} (h : step s = .next t) :
    s.cfg.Legal ∧
      ((s.input.rst = true ∧ t = s.resetStep) ∨
        (s.input.rst = false ∧ s.Invariants ∧ s.Representable ∧ s.runStep = .next t)) := by
  unfold step clockStep at h
  split at h
  · cases h
  · rename_i hl
    refine ⟨Decidable.not_not.mp hl, ?_⟩
    split at h
    · rename_i hr
      cases h
      exact .inl ⟨hr, rfl⟩
    · rename_i hr
      split at h
      · cases h
      · rename_i hi
        split at h
        · cases h
        · rename_i hp
          exact .inr ⟨by simpa using hr, Decidable.not_not.mp hi, Decidable.not_not.mp hp, h⟩

theorem step_eq_runStep {s : State} (hl : s.cfg.Legal) (hr : s.input.rst = false) (hi : s.Invariants)
    (hp : s.Representable) : step s = s.runStep := by
  unfold step clockStep
  rw [if_neg (not_not.mpr hl), if_neg (by simp [hr]), if_neg (not_not.mpr hi), if_neg (not_not.mpr hp)]

/-- A sound state outside a reset steps by `runStep`. -/
theorem State.Sound.step_eq {s : State} (h : s.Sound) (hr : s.input.rst = false) :
    step s = s.runStep :=
  step_eq_runStep h.1 hr h.2.1 h.2.2.1

/-- The state in which the control multiplexer acts: the sequencer has advanced, `mev_stb` is down. -/
def advanced (s : State) : State :=
  (State.rbAdvance s.input.tick { s with mevStb := false }).1

/-- `seq_done` of the step (R75). -/
def seqDone (s : State) : Bool :=
  (State.rbAdvance s.input.tick { s with mevStb := false }).2

/-- A running step is the control multiplexer's row, then the end of the step. -/
theorem runStep_next {s t : State} (h : s.runStep = .next t) :
    ∃ u, (advanced s).control (s.debRead (s.ctl == .idle)).1 (seqDone s) = .next u ∧
      t = s.endStep (s.debRead (s.ctl == .idle)).2 u := by
  unfold State.runStep at h
  dsimp only at h
  split at h
  · rename_i u hu
    cases h
    exact ⟨u, hu, rfl⟩
  · cases h
  · cases h

theorem runStep_of_control {s u : State}
    (h : (advanced s).control (s.debRead (s.ctl == .idle)).1 (seqDone s) = .next u) :
    s.runStep = .next (s.endStep (s.debRead (s.ctl == .idle)).2 u) := by
  unfold State.runStep
  dsimp only
  unfold advanced seqDone at h
  rw [h]

/-- While no phase runs, only `mev_stb` falls before the control multiplexer acts. -/
theorem advanced_idle {s : State} (h : s.seq = .idle) :
    advanced s = { s with mevStb := false } ∧ seqDone s = false := by
  unfold advanced seqDone
  rcases rbAdvance_cases s.input.tick { s with mevStb := false } with ⟨_, hc⟩ | ⟨hb, _⟩ | ⟨hb, _⟩ |
    ⟨hb, _⟩ | ⟨hb, _⟩
  · rw [hc]
    exact ⟨rfl, rfl⟩
  all_goals rw [show ({ s with mevStb := false } : State).seq = s.seq from rfl, h] at hb; cases hb

/-- The read-and-clear, by whether it fires (R88). -/
theorem debRead_eq (s : State) :
    s.debRead (s.ctl == .idle) = if s.fires then (s.acc, 0#2) else (0#2, s.acc) := rfl

/-- The command word of a step is a command's or a word of an illegal command (R119). -/
theorem commandWord_cases (s : State) :
    (∃ i, s.commandWord = exec i s ∧
      ((s.ctl = .idle ∧ decodeHeader s.input.cmdData s.input.cmdErr = .ok i) ∨
        (s.ctl ≠ .idle ∧ instrOfOpcode s.op = some i))) ∨
    (s.commandWord = s.illegalWord ∧
      ((s.ctl = .idle ∧ ∀ i, decodeHeader s.input.cmdData s.input.cmdErr ≠ .ok i) ∨
        (s.ctl ≠ .idle ∧ instrOfOpcode s.op = none))) := by
  unfold State.commandWord
  split
  · rename_i hc
    split
    · rename_i i hi
      exact .inl ⟨i, rfl, .inl ⟨hc, hi⟩⟩
    · rename_i e he
      refine .inr ⟨rfl, .inl ⟨hc, fun i hi => ?_⟩⟩
      rw [he] at hi
      cases hi
  · rename_i hc
    split
    · rename_i i hi
      exact .inl ⟨i, rfl, .inr ⟨hc, hi⟩⟩
    · rename_i hn
      exact .inr ⟨rfl, .inr ⟨hc, hn⟩⟩

/-- If a word of an illegal command answers a next state, it is consumed, and answered at the end. -/
theorem illegalWord_next {s t : State} (h : s.illegalWord = .next t) :
    ∃ u, (u = if s.ctl = .idle then s.beginCommand (headerOpcode s.input.cmdData) 1#8 else s.countArg) ∧
      u.err ≠ 0#8 ∧
      ((s.input.cmdLast = true ∧ t = u.respond (errorRsp u.err)) ∨
        (s.input.cmdLast = false ∧ t = { u with ctl := .args })) := by
  refine ⟨_, rfl, ?_⟩
  unfold State.illegalWord at h
  dsimp only at h
  rw [show ErrCode.opcode.code = 1#8 from rfl] at h
  generalize (if s.ctl = .idle then s.beginCommand (headerOpcode s.input.cmdData) 1#8
    else s.countArg) = u at h ⊢
  split at h
  · cases h
  · rename_i he
    refine ⟨he, ?_⟩
    split at h
    · rename_i hl
      cases h
      exact .inl ⟨hl, rfl⟩
    · rename_i hl
      cases h
      exact .inr ⟨by simpa using hl, rfl⟩

/-- What the control multiplexer can do in a step (R119). -/
theorem control_next {s t : State} {ev : BitVec 2} {done : Bool} (h : s.control ev done = .next t) :
    (s.ctl = .idle ∧ ev ≠ 0#2 ∧ s.manual ev = .next t) ∨
    (s.ctl = .idle ∧ ev = 0#2 ∧ s.input.cmdValid = true ∧ s.commandWord = .next t) ∨
    (s.ctl = .args ∧ s.input.cmdValid = true ∧ s.commandWord = .next t) ∨
    ((s.ctl = .idle ∧ ev = 0#2 ∨ s.ctl = .args) ∧ s.input.cmdValid = false ∧ t = s) ∨
    (s.ctl = .seq ∧ done = true ∧ t = s.respond ackRsp) ∨
    (s.ctl = .man ∧ done = true ∧ t = { s with ctl := .idle }) ∨
    ((s.ctl = .seq ∨ s.ctl = .man) ∧ done = false ∧ t = s) ∨
    (s.ctl = .rsp ∧ s.input.rspReady = true ∧ t = s.takeWord) ∨
    (s.ctl = .rsp ∧ s.input.rspReady = false ∧ t = s) := by
  unfold State.control at h
  cases hc : s.ctl <;> rw [hc] at h <;> dsimp only at h
  · split at h
    · exact .inl ⟨rfl, ‹_›, h⟩
    · rename_i he
      have he : ev = 0#2 := Decidable.not_not.mp he
      split at h
      · exact .inr (.inl ⟨rfl, he, ‹_›, h⟩)
      · rename_i hv
        cases h
        exact .inr (.inr (.inr (.inl ⟨.inl ⟨rfl, he⟩, by simpa using hv, rfl⟩)))
  · split at h
    · exact .inr (.inr (.inl ⟨rfl, ‹_›, h⟩))
    · rename_i hv
      cases h
      exact .inr (.inr (.inr (.inl ⟨.inr rfl, by simpa using hv, rfl⟩)))
  · cases done <;> cases h <;> simp
  · cases done <;> cases h <;> simp
  · cases hr : s.input.rspReady <;> rw [hr] at h <;> cases h <;> simp

end Sys2Proof.Machine
end

