-- ==== Sys2Proof/Laws/PerInstr.lean ====
section
/-! SUPPORT. Statements about the nine commands as syntax, one lemma for each command. -/

namespace Sys2Proof.Laws

/-- The header word of a command, sent unmarked, decodes to that command (R57, R58). -/
def HeaderRoundTrip.Statement (i : Instr) : Prop :=
  decodeHeader (encodeHeader i) false = .ok i

theorem HeaderRoundTrip.opn : HeaderRoundTrip.Statement .opn := rfl

theorem HeaderRoundTrip.cls : HeaderRoundTrip.Statement .cls := rfl

theorem HeaderRoundTrip.clsQ : HeaderRoundTrip.Statement .clsQ := rfl

theorem HeaderRoundTrip.opnAll : HeaderRoundTrip.Statement .opnAll := rfl

theorem HeaderRoundTrip.stateQ : HeaderRoundTrip.Statement .stateQ := rfl

theorem HeaderRoundTrip.set : HeaderRoundTrip.Statement .set := rfl

theorem HeaderRoundTrip.setMbb : HeaderRoundTrip.Statement .setMbb := rfl

theorem HeaderRoundTrip.getQ : HeaderRoundTrip.Statement .getQ := rfl

theorem HeaderRoundTrip.ident : HeaderRoundTrip.Statement .ident := rfl

end Sys2Proof.Laws
end

