-- ==== Sys2Proof/Tests/Slice0.lean ====
section
/-! SUPPORT. Tests: words written out from the spec's encodings, the smoke tests of WellFormed, single
steps with the results `spec/95_test_vectors.md` gives, and for each obligation a state and operands that
meet its hypotheses. -/

namespace Sys2Proof.Tests

open Sys2Proof Sys2Proof.Machine

/-! Helpers -/

/-- Nothing driven. -/
def quietBeat : Inputs := { tickBeat with tick := false, rspReady := false }

/-- A word on the command port, and nothing else. -/
def word (w : Nat) (last marked : Bool) : Inputs :=
  { quietBeat with cmdValid := true, cmdData := BitVec.ofNat 32 w, cmdLast := last, cmdErr := marked }

/-- A tick with buttons. -/
def buttons (b : BitVec 2) : Inputs := { quietBeat with tick := true, btnRaw := b }

/-- A tick and nothing else. -/
def tick : Inputs := buttons 0#2

/-- Configuration SMALL of `95_test_vectors.md`. -/
def small : Config := { Config.reference with n := 4, wDeb := 3, tOp := 2, tRel := 2 }

/-- Waiting for a header, with the relays `r` and the inputs `l`. -/
def idling (r : Mask) (l : List Inputs) : State := { State.resetWith small l 0 with relay := r }

/-- Receiving the argument words of the command `i`. -/
def inArgs (i : Instr) (r : Mask) (l : List Inputs) : State :=
  { State.reset with relay := r, inputs := l, ctl := .args, op := i.opcode }

/-- What a field is after a result, where it is a next state. -/
def after {α : Type} (r : Result) (f : State → α) : Option α :=
  match r with
  | .next t => some (f t)
  | .fault _ => none
  | .refused _ => none

theorem next_of_after {r : Result} (h : after r (fun _ => true) = some true) : ∃ t, r = .next t := by
  cases r with
  | next t => exact ⟨t, rfl⟩
  | fault f => cases h
  | refused f => cases h

/-! Decoding: the words of R58 and R60, bit by bit -/

theorem test_decode_OPEN :
    decodeHeader 0b00000000000000000000000000000001#32 false = .ok .opn := by decide
theorem test_decode_CLOSE :
    decodeHeader 0b00000000000000000000000000000010#32 false = .ok .cls := by decide
theorem test_decode_CLOSE_Q :
    decodeHeader 0b00000000000000000000000000000011#32 false = .ok .clsQ := by decide
theorem test_decode_OPEN_ALL :
    decodeHeader 0b00000000000000000000000000000100#32 false = .ok .opnAll := by decide
theorem test_decode_STATE_Q :
    decodeHeader 0b00000000000000000000000000000101#32 false = .ok .stateQ := by decide
theorem test_decode_SET :
    decodeHeader 0b00000000000000000000000000000110#32 false = .ok .set := by decide
theorem test_decode_SET_MBB :
    decodeHeader 0b00000000000000000000000000000111#32 false = .ok .setMbb := by decide
theorem test_decode_GET_Q :
    decodeHeader 0b00000000000000000000000000001000#32 false = .ok .getQ := by decide
theorem test_decode_IDENT :
    decodeHeader 0b00000000000000000000000000001001#32 false = .ok .ident := by decide

/-- C48 to C53: reserved opcodes, nonzero reserved bits, a marked header. -/
theorem test_decode_reserved_headers :
    decodeHeader 0x00000000#32 false = .error .opcode ∧
    decodeHeader 0x0000000A#32 false = .error .opcode ∧
    decodeHeader 0x0000000F#32 false = .error .opcode ∧
    decodeHeader 0x00000011#32 false = .error .opcode ∧
    decodeHeader 0x80000001#32 false = .error .opcode ∧
    decodeHeader 0x00000001#32 true = .error .opcode := by decide

/-- R60: channel 3, the range 1:8 (C3), and C12 to C15's malformed words. -/
theorem test_decode_entries :
    decodeEntry 0b00000000000000000000000000000011#32 false = .ok (.single 3#8) ∧
    decodeEntry 0b01000000000000000000000100001000#32 false = .ok (.range 1#8 8#8) ∧
    decodeEntry 0x80000001#32 false = .error .malformed ∧
    decodeEntry 0xC0000000#32 false = .error .malformed ∧
    decodeEntry 0x00010001#32 false = .error .malformed ∧
    decodeEntry 0x00000201#32 false = .error .malformed ∧
    decodeEntry 0x00000001#32 true = .error .malformed := by decide

/-- A LIST row, a NUM row, a NONE row and a reserved word, numbered as the opcode table numbers them. -/
theorem test_decodeTableWord :
    decodeTableWord 32 0x00000003 = some .clsQ ∧ decodeTableWord 32 0x00000007 = some .setMbb ∧
    decodeTableWord 32 0x00000009 = some .ident ∧ decodeTableWord 32 0x0000000A = none := by decide

/-- R67: the packet of `CLOSE (@1,3)`. -/
theorem test_encode_close :
    encodeCommand ⟨.cls, [.entry (.single 1#8), .entry (.single 3#8)]⟩ =
      [⟨0x00000002#32, false, false⟩, ⟨0x00000001#32, false, false⟩, ⟨0x00000003#32, true, false⟩] := by
  decide

/-- R67: `OPEN (@2:4)`, and back. -/
theorem test_decode_packet :
    decodeCommand [⟨0x00000001#32, false, false⟩, ⟨0x40000204#32, true, false⟩] =
      .ok ⟨.opn, [.entry (.range 2#8 4#8)]⟩ := by decide

/-! WellFormed refuses -/

theorem test_wf_accepts : Command.wellFormed 8 32 ⟨.opn, [.entry (.range 1#8 8#8)]⟩ = true := by decide
theorem test_wf_wrong_class : Command.wellFormed 8 32 ⟨.opn, [.number 1#32]⟩ = false := by decide
theorem test_wf_missing :
    Command.wellFormed 8 32 ⟨.cls, []⟩ = false ∧ Command.wellFormed 8 32 ⟨.set, []⟩ = false := by decide
theorem test_wf_two_numbers :
    Command.wellFormed 8 32 ⟨.setMbb, [.number 1#32, .number 2#32]⟩ = false := by decide
theorem test_wf_channel_range :
    Command.wellFormed 8 32 ⟨.opn, [.entry (.single 0#8)]⟩ = false ∧
    Command.wellFormed 8 32 ⟨.opn, [.entry (.single 9#8)]⟩ = false ∧
    Command.wellFormed 8 32 ⟨.opn, [.entry (.range 2#8 9#8)]⟩ = false := by decide
theorem test_wf_unordered : Command.wellFormed 8 32 ⟨.cls, [.entry (.range 5#8 2#8)]⟩ = false := by
  decide
/-- C28, C29: two flags fit QMAX = 2, three do not; OPEN has no such limit. -/
theorem test_wf_flags :
    Command.wellFormed 8 2 ⟨.clsQ, [.entry (.range 1#8 2#8)]⟩ = true ∧
    Command.wellFormed 8 2 ⟨.clsQ, [.entry (.range 1#8 3#8)]⟩ = false ∧
    Command.wellFormed 8 2 ⟨.opn, [.entry (.range 1#8 3#8)]⟩ = true := by decide

/-! One step of each command, with the results of `95_test_vectors.md` -/

/-- C1. -/
theorem test_open :
    after (exec .opn (inArgs .opn 0x05#32 [word 3 true false])) (fun t => (t.relay, t.dly, t.seq, t.ctl))
      = some (0x01#32, 10#16, .busy, .seq) := by decide
/-- C10: the channel test goes before the order test. -/
theorem test_open_channel_first :
    after (exec .opn (inArgs .opn 0x05#32 [word 0x40000902 true false])) (fun t => (t.rbuf, t.relay))
      = some ([0xF0040000#32], 0x05#32) := by decide
/-- C18, its last word. -/
theorem test_close :
    after (exec .cls { inArgs .cls 0#32 [word 3 true false] with nargs := 1#16, amask := 1#32 })
      (fun t => (t.relay, t.dly, t.p2Valid)) = some (0x05#32, 10#16, false) := by decide
/-- P3, command 2. -/
theorem test_close_order :
    after (exec .cls (inArgs .cls 0#32 [word 0x40000502 true false])) (fun t => (t.rbuf, t.ctl))
      = some ([0xF0060000#32], .rsp) := by decide
/-- C22, its last word: list order, not bit order. -/
theorem test_closeQ :
    after (exec .clsQ { inArgs .clsQ 1#32 [word 1 true false] with nargs := 1#16, qflags := [false] })
      (fun t => (t.rbuf, t.relay)) = some ([0x10000002#32, 0#32, 1#32], 1#32) := by decide
/-- C23. -/
theorem test_closeQ_range :
    after (exec .clsQ (inArgs .clsQ 0x0A#32 [word 0x40000104 true false])) (fun t => t.rbuf)
      = some [0x10000004#32, 0#32, 1#32, 0#32, 1#32] := by decide
/-- C31. -/
theorem test_openAll :
    after (exec .opnAll { State.reset with relay := 0x81#32, inputs := [word 4 true false] })
      (fun t => (t.relay, t.dly, t.ctl)) = some (0#32, 10#16, .seq) := by decide
/-- C30, its last word, sent marked. -/
theorem test_openAll_ignores :
    after (exec .opnAll (inArgs .opnAll 0x81#32 [word 7 true true])) (fun t => (t.relay, t.err))
      = some (0#32, 0#8) := by decide
/-- C32. -/
theorem test_stateQ :
    after (exec .stateQ { State.reset with relay := 0x05#32, inputs := [word 5 true false] })
      (fun t => t.rbuf)
      = some [0x30000006#32, 0x28#32, 0x40#32, 0x31#32, 0x2C#32, 0x33#32, 0x29#32] := by decide
/-- C35: N = 32, channels 10 and 32. -/
theorem test_stateQ_two_digits :
    after (exec .stateQ { State.resetWith { Config.reference with n := 32 } [word 5 true false] 0 with
      relay := 0x80000200#32 }) (fun t => t.rbuf)
      = some [0x30000008#32, 0x28#32, 0x40#32, 0x31#32, 0x30#32, 0x2C#32, 0x33#32, 0x32#32, 0x29#32] := by
  decide
/-- B6 and C36: bit 8 of the argument is dropped. -/
theorem test_set :
    after (exec .set (inArgs .set 0x03#32 [word 0x106 true false]))
      (fun t => (t.relay, t.p2Valid, t.p2Kind, t.p2Mask)) = some (0x02#32, true, .cls, 0x06#32) := by
  decide
/-- C42: the second word is E_EXTRA before its own mark. -/
theorem test_set_extra :
    after (exec .set { inArgs .set 0x05#32 [word 2 true true] with nargs := 1#16 }) (fun t => t.rbuf)
      = some [0xF0050000#32] := by decide
/-- B5 and C43. -/
theorem test_setMbb :
    after (exec .setMbb (inArgs .setMbb 0x03#32 [word 0x06 true false]))
      (fun t => (t.relay, t.p2Valid, t.p2Kind, t.p2Mask)) = some (0x07#32, true, .opn, 0x01#32) := by
  decide
/-- R66: a SET_MBB without its argument. -/
theorem test_setMbb_missing :
    after (exec .setMbb { State.reset with inputs := [word 7 true false] }) (fun t => t.rbuf)
      = some [0xF0020000#32] := by decide
/-- C44. -/
theorem test_getQ :
    after (exec .getQ { State.reset with relay := 0x05#32, inputs := [word 8 true false] })
      (fun t => (t.rbuf, t.relay)) = some ([0x20000001#32, 0x00000005#32], 0x05#32) := by decide
/-- C45, its last word, sent marked. -/
theorem test_getQ_ignores :
    after (exec .getQ (inArgs .getQ 0x05#32 [word 5 true true])) (fun t => t.rbuf)
      = some [0x20000001#32, 0x00000005#32] := by decide
/-- C46. -/
theorem test_ident :
    after (exec .ident
      (State.resetWith { Config.reference with identBytes := [0x41#8, 0x42#8] } [word 9 true false] 0))
      (fun t => t.rbuf) = some [0x40000002#32, 0x41#32, 0x42#32] := by decide
/-- C47. -/
theorem test_ident_empty :
    after (exec .ident { State.reset with inputs := [word 9 true false] }) (fun t => t.rbuf)
      = some [0x40000000#32] := by decide

/-- C51: the step of a header that is not legal. -/
theorem test_step_illegal_header :
    after (step { State.reset with inputs := [word 0x11 true false] }) (fun t => (t.rbuf, t.op))
      = some ([0xF0010000#32], 1#4) := by decide
/-- M3b, its step 4: from `{1,3}` a Cycle opens all first and holds channel 4. -/
theorem test_step_cycle :
    after (step { idling 0x05#32 [tick] with now := 4#32, acc := 1#2 })
      (fun t => (t.relay, t.p2Kind, t.p2Mask, t.ctl, t.mev, t.acc))
      = some (0#32, .cls, 0x08#32, .man, 1#2, 0#2) := by decide
/-- D3, its step 6: Clear wins over Cycle. -/
theorem test_step_clear :
    after (step { idling 0x05#32 [tick] with now := 6#32, last := 2#32, acc := 3#2 })
      (fun t => (t.relay, t.p2Valid, t.mev, t.mevStb)) = some (0#32, false, 3#2, true) := by decide
/-- D5: with W_DEB = 0 the sample of the firing step is taken after the read. -/
theorem test_step_read_before_sample :
    after (step { State.resetWith { small with wDeb := 0 } [buttons 1#2] 0 with now := 1#32, acc := 1#2 })
      (fun t => (t.acc, t.mev, t.last, t.now)) = some (1#2, 1#2, 1#32, 2#32) := by decide
/-- Log entry 14, SMALL: after exactly W_DEB = 3 quiet ticks the next press is a new burst; after two it
joins the old one. -/
theorem test_step_gap_of_the_window :
    after (step { idling 0#32 [buttons 2#2] with now := 4#32, acc := 1#2 }) (fun t => (t.mev, t.acc))
      = some (1#2, 2#2) ∧
    after (step { idling 0#32 [buttons 2#2] with now := 3#32, acc := 1#2 }) (fun t => (t.mev, t.acc))
      = some (0#2, 3#2) := by decide
/-- R2, its step 5: the tick that ends the phase. -/
theorem test_step_phase_end :
    after (step { idling 0#32 [tick] with seq := .busy, ctl := .seq, dly := 1#16 })
      (fun t => (t.seq, t.dly, t.ctl, t.rbuf)) = some (.idle, 0#16, .rsp, [0#32]) := by decide
/-- B4: the second phase of SET 0x06 from 0x03. -/
theorem test_step_second_phase :
    after (step { idling 0x02#32 [tick] with
      seq := .busy, ctl := .seq, dly := 1#16, p2Valid := true, p2Kind := .cls, p2Mask := 0x06#32 })
      (fun t => (t.relay, t.dly, t.seq, t.p2Valid)) = some (0x06#32, 2#16, .busy, false) := by decide
/-- R149: the elapsed time is modular. -/
theorem test_quiet_wraps :
    State.quiet { idling 0#32 [] with now := 1#32, last := 0xFFFFFFFD#32, acc := 1#2 } = true ∧
    State.quiet { idling 0#32 [] with now := 0#32, last := 0xFFFFFFFD#32, acc := 1#2 } = false := by
  decide
/-- R1, its step 5: a reset during a sequence. -/
theorem test_step_reset :
    after (step { idling 0x0F#32 [{ tick with rst := true }] with
      seq := .busy, ctl := .seq, dly := 1#16, now := 5#32 })
      (fun t => (t.relay, t.now, t.ctl, t.seq)) = some (0#32, 0#32, .idle, .idle) := by decide
/-- The host's placing of `OPEN`: the next step takes its header. -/
theorem test_withFetchWord :
    after (step (State.reset.withFetchWord 32 0x00000001)) (fun t => (t.ctl, t.op)) = some (.args, 1#4) ∧
    after (step (State.reset.withFetchWord 32 0x00000004)) (fun t => (t.ctl, t.dly)) = some (.seq, 10#16)
    := by decide

/-! For each obligation with hypotheses, a state and operands that meet them -/

/-- What the environment drives has no part in soundness. -/
theorem sound_inputs {s : State} (h : s.Sound) (l : List Inputs) : State.Sound { s with inputs := l } := h

theorem sound_idling : (idling 0x05#32 [word 4 true false]).Sound :=
  ⟨by decide, by decide, by decide, by decide⟩

theorem witness_HeaderIsLegalExactlyForNineWords :
    (∀ i : Instr, decodeHeader 0x0000000A#32 false ≠ .ok i) ∧
    (∀ i : Instr, decodeHeader 0x00000009#32 true ≠ .ok i) :=
  ⟨fun i => by cases i <;> decide, fun i => by cases i <;> decide⟩

theorem witness_DecodingAnEncodedCommandGivesItBack :
    Command.shapeOk ⟨.opn, [.entry (.single 255#8), .entry (.range 0#8 255#8)]⟩ = true ∧
    Command.shapeOk ⟨.set, [.number 0xFFFFFFFF#32]⟩ = true ∧
    Command.shapeOk ⟨.getQ, []⟩ = true ∧ Command.shapeOk ⟨.getQ, [.ignored 5#32 true]⟩ = true := by
  decide

theorem witness_DecodedPacketsAreEncodedCommands :
    decodeCommand [⟨0x00000008#32, false, false⟩, ⟨5#32, true, true⟩] =
      .ok ⟨.getQ, [.ignored 5#32 true]⟩ := by decide

theorem witness_RangeMaskHasTheBitsOfItsChannels :
    1 ≤ 1 ∧ 32 ≤ 32 ∧ 31 < 32 ∧ (maskOf (channels 1 32)).getLsbD 31 = true := by decide

theorem witness_CycleNextDefault :
    small.Legal ∧ small.cycleTable = [] ∧ small.cut 0#32 = 0#32 ∧
    (3 < small.n ∧ (0x08#32).getLsbD 3 = true ∧ ∀ k, 3 < k → k < small.n → (0x08#32).getLsbD k = false) ∧
    (0 < small.n ∧ (0x01#32).getLsbD 0 = true ∧ ∀ k, 0 < k → k < small.n → (0x01#32).getLsbD k = false)
    := by
  refine ⟨by decide, rfl, by decide, ⟨by decide, by decide, ?_⟩, ⟨by decide, by decide, ?_⟩⟩
  · intro k h1 h2
    have h2 : k < 4 := h2
    omega
  · intro k h1 h2
    have h2 : k < 4 := h2
    obtain rfl | rfl | rfl : k = 1 ∨ k = 2 ∨ k = 3 := by omega
    all_goals decide

theorem witness_WordNotTakenHasNoEffect :
    (∃ s : State, s.input.cmdValid = true ∧ (s.input.cmdValid && s.cmdReady) = false) ∧
    (∃ s : State, s.cmdReady = true ∧ (s.input.cmdValid && s.cmdReady) = false) :=
  ⟨⟨{ idling 0#32 [word 1 true false] with ctl := .rsp }, by decide⟩, ⟨idling 0#32 [tick], by decide⟩⟩

theorem witness_HeaderStartsACommand :
    ∃ s : State, s.ctl = .idle ∧ s.quiet = false ∧ s.input.cmdValid = true ∧ s.input.cmdLast = false :=
  ⟨idling 0#32 [word 1 false false], by decide⟩

theorem witness_MissingArgumentAnswersError :
    ∃ s : State, s.ctl = .idle ∧ s.quiet = false ∧ s.input.cmdValid = true ∧ s.input.cmdLast = true :=
  ⟨idling 0#32 [word 1 true false], by decide⟩

theorem witness_FirstErrorWins :
    (∃ s : State, s.ctl = .args ∧ s.err ≠ 0#8 ∧ s.input.cmdValid = true ∧ s.input.cmdLast = true) ∧
    (∃ s : State, s.ctl = .args ∧ s.err ≠ 0#8 ∧ s.input.cmdValid = true ∧ s.input.cmdLast = false ∧
      s.nargs = 0xFFFF#16) :=
  ⟨⟨{ inArgs .opn 0#32 [word 99 true false] with err := 3#8 }, by decide⟩,
    ⟨{ inArgs .opn 0#32 [word 99 false false] with err := 7#8, nargs := 0xFFFF#16 }, by decide⟩⟩

/-- A state whose entry word has the error `e`. -/
def BadEntry (w : Nat) (last marked : Bool) (e : BitVec 8) : Prop :=
  ∃ s : State, s.ctl = .args ∧ s.err = 0#8 ∧ s.input = word w last marked ∧
    s.input.cmdValid = true ∧ s.input.cmdLast = last ∧
    entryErr s.cfg.n s.input.cmdData s.input.cmdErr = e ∧ e ≠ 0#8

theorem badEntry {w : Nat} {last marked : Bool} {e : BitVec 8}
    (h : entryErr 8 (BitVec.ofNat 32 w) marked = e ∧ e ≠ 0#8) : BadEntry w last marked e :=
  ⟨inArgs .opn 0#32 [word w last marked], rfl, rfl, rfl, rfl, rfl, h⟩

theorem witness_BadEntryRaisesItsError :
    BadEntry 1 true true 3#8 ∧ BadEntry 0x80000001 false false 3#8 ∧ BadEntry 0x40010101 true false 3#8 ∧
    BadEntry 0x00000101 true false 3#8 ∧ BadEntry 0 false false 4#8 ∧ BadEntry 9 true false 4#8 ∧
    BadEntry 0x40000902 true false 4#8 ∧ BadEntry 0x40000802 true false 6#8 :=
  ⟨badEntry (by decide), badEntry (by decide), badEntry (by decide),
    badEntry (by decide), badEntry (by decide), badEntry (by decide),
    badEntry (by decide), badEntry (by decide)⟩

/-- Channel 1, channel N and the whole range [1, N], ending the command or not. -/
theorem legal_entries (last : Bool) :
    LegalEntryOffered (inArgs .opn 0x05#32 [word 1 last false]) (.single 1#8) ∧
    LegalEntryOffered (inArgs .opn 0x05#32 [word 8 last false]) (.single 8#8) ∧
    LegalEntryOffered (inArgs .opn 0x05#32 [word 0x40000108 last false]) (.range 1#8 8#8) := by
  unfold LegalEntryOffered
  cases last <;> decide

theorem witness_EntryJoinsTheUnion :
    ∃ (s : State) (e : Entry), LegalEntryOffered s e ∧ s.input.cmdLast = false :=
  ⟨_, _, (legal_entries false).2.2, rfl⟩

theorem witness_QueryEntryAppendsItsFlags :
    (∃ (s : State) (e : Entry), LegalEntryOffered s e ∧ s.input.cmdLast = false ∧
      s.qflags.length + (e.hi - e.lo + 1) ≤ s.cfg.qMax) ∧
    (∃ (s : State) (e : Entry), LegalEntryOffered s e ∧ s.input.cmdLast = false ∧
      s.qflags.length + (e.hi - e.lo + 1) = s.cfg.qMax + 1) :=
  ⟨⟨_, _, (legal_entries false).2.2, rfl, by decide⟩,
    ⟨{ inArgs .opn 0x05#32 [word 0x40000108 false false] with qflags := List.replicate 25 true },
      .range 1#8 8#8, by unfold LegalEntryOffered; decide, rfl, by decide⟩⟩

theorem witness_NumericWordIsTheArgument :
    (∃ s : State, s.ctl = .args ∧ s.err = 0#8 ∧ s.input.cmdValid = true ∧ s.input.cmdLast = false ∧
      s.nargs ≠ 0#16 ∧ s.input.cmdErr = true) ∧
    (∃ s : State, s.ctl = .args ∧ s.err = 0#8 ∧ s.input.cmdValid = true ∧ s.input.cmdLast = false ∧
      s.nargs = 0#16 ∧ s.input.cmdErr = true) ∧
    (∃ s : State, s.ctl = .args ∧ s.err = 0#8 ∧ s.input.cmdValid = true ∧ s.input.cmdLast = false ∧
      s.nargs = 0#16 ∧ s.input.cmdErr = false) :=
  ⟨⟨{ inArgs .set 0#32 [word 2 false true] with nargs := 1#16 }, by decide⟩,
    ⟨inArgs .set 0#32 [word 2 false true], by decide⟩, ⟨inArgs .set 0#32 [word 2 false false], by decide⟩⟩

theorem witness_BadNumericWordAnswersError :
    (∃ s : State, s.ctl = .args ∧ s.err = 0#8 ∧ s.input.cmdValid = true ∧ s.input.cmdLast = true ∧
      s.nargs ≠ 0#16) ∧
    (∃ s : State, s.ctl = .args ∧ s.err = 0#8 ∧ s.input.cmdValid = true ∧ s.input.cmdLast = true ∧
      s.nargs = 0#16 ∧ s.input.cmdErr = true) :=
  ⟨⟨{ inArgs .set 0#32 [word 2 true false] with nargs := 1#16 }, by decide⟩,
    ⟨inArgs .set 0#32 [word 2 true true], by decide⟩⟩

theorem witness_IgnoredWordIsOnlyCounted :
    ∃ s : State, s.ctl = .args ∧ s.input.cmdValid = true ∧ s.input.cmdLast = false ∧
      s.input.cmdErr = true :=
  ⟨inArgs .getQ 0#32 [word 7 false true], by decide⟩

theorem witness_OpenStartsAtItsLastEntry :
    ∃ (s : State) (e : Entry), LegalEntryOffered s e ∧ s.input.cmdLast = true ∧ s.seq = .idle :=
  ⟨_, _, (legal_entries true).1, rfl, rfl⟩

theorem witness_CloseStartsAtItsLastEntry :
    ∃ (s : State) (e : Entry), LegalEntryOffered s e ∧ s.input.cmdLast = true ∧ s.seq = .idle :=
  ⟨_, _, (legal_entries true).2.1, rfl, rfl⟩

theorem witness_CloseQueryAnswersAtItsLastEntry :
    (∃ (s : State) (e : Entry), LegalEntryOffered s e ∧ s.input.cmdLast = true ∧ s.cfg.qMax ≤ 65535 ∧
      s.qflags.length + (e.hi - e.lo + 1) = s.cfg.qMax) ∧
    (∃ (s : State) (e : Entry), LegalEntryOffered s e ∧ s.input.cmdLast = true ∧ s.cfg.qMax ≤ 65535 ∧
      s.qflags.length + (e.hi - e.lo + 1) = s.cfg.qMax + 1) :=
  ⟨⟨{ inArgs .opn 0x05#32 [word 0x40000108 true false] with qflags := List.replicate 24 true },
      .range 1#8 8#8, by unfold LegalEntryOffered; decide, rfl, by decide, by decide⟩,
    ⟨{ inArgs .opn 0x05#32 [word 0x40000108 true false] with qflags := List.replicate 25 true },
      .range 1#8 8#8, by unfold LegalEntryOffered; decide, rfl, by decide, by decide⟩⟩

/-- The last word of a command of class NONE, as its header and as an argument word. -/
theorem last_plain_words :
    LastPlainWord (idling 0x05#32 [word 4 true false]) ∧
    LastPlainWord (inArgs .opnAll 0x81#32 [word 7 true true]) := by
  unfold LastPlainWord
  decide

theorem witness_OpenAllOpensEveryChannel :
    ∃ s : State, LastPlainWord s ∧ s.seq = .idle ∧ s.cfg.cut s.relay = s.relay :=
  ⟨_, last_plain_words.2, rfl, by decide⟩

theorem witness_StateQueryAnswersItsString : ∃ s : State, LastPlainWord s ∧ s.cfg.n ≤ 32 :=
  ⟨_, last_plain_words.1, by decide⟩

theorem witness_GetQueryAnswersTheMask : ∃ s : State, LastPlainWord s ∧ s.cfg.cut s.relay = s.relay :=
  ⟨_, last_plain_words.1, by decide⟩

theorem witness_IdentAnswersTheIdentity : ∃ s : State, LastPlainWord s ∧ s.cfg.identBytes.length ≤ 255 :=
  ⟨_, last_plain_words.1, by decide⟩

/-- The numeric word of a SET, with a bit above N. -/
theorem number_offered : NumberOffered (inArgs .set 0x03#32 [word 0x106 true false]) 0x106#32 := by
  unfold NumberOffered
  decide

theorem witness_SetOpensFirst : ∃ (s : State) (v : Word), NumberOffered s v ∧ s.seq = .idle :=
  ⟨_, _, number_offered, rfl⟩

theorem witness_SetMbbClosesFirst : ∃ (s : State) (v : Word), NumberOffered s v ∧ s.seq = .idle :=
  ⟨_, _, number_offered, rfl⟩

theorem witness_StartWhileBusyFaults :
    (∃ (s : State) (e : Entry), s.seq = .busy ∧ LegalEntryOffered s e ∧ s.input.cmdLast = true) ∧
    (∃ s : State, s.seq = .busy ∧ LastPlainWord s) ∧
    (∃ (s : State) (v : Word), s.seq = .busy ∧ NumberOffered s v) :=
  ⟨⟨{ inArgs .opn 0#32 [word 1 true false] with seq := .busy }, .single 1#8, rfl,
      by unfold LegalEntryOffered; decide, rfl⟩,
    ⟨{ inArgs .opnAll 0#32 [word 1 true false] with seq := .busy }, rfl, by unfold LastPlainWord; decide⟩,
    ⟨{ inArgs .set 0#32 [word 1 true false] with seq := .busy }, 1#32, rfl,
      by unfold NumberOffered; decide⟩⟩

theorem witness_CommandWordFrame :
    (∃ s t : State, exec .getQ s = .next t ∧ Instr.mutating .getQ = false) ∧
    (∃ s t : State, exec .opn s = .next t ∧ t.seq = s.seq) ∧
    (∃ s t : State, exec .opnAll s = .next t ∧ t.seq ≠ s.seq) :=
  ⟨⟨idling 0x05#32 [word 8 true false], _, rfl, rfl⟩, ⟨idling 0x05#32 [word 1 false false], _, rfl, rfl⟩,
    ⟨idling 0x05#32 [word 4 true false], _, rfl, by decide⟩⟩

theorem witness_SequenceStartWritesTheFirstPhase :
    (idling 0#32 []).seq = .idle ∧ ({ idling 0#32 [] with seq := .busy } : State).seq = .busy := by decide

/-- A state in the first phase of `SET 0x06` from 0x03, for a command, or for a manual action. -/
def inSet (ctl : Ctl) (l : List Inputs) : State :=
  { idling 0x02#32 l with
    seq := .busy, ctl := ctl, dly := 2#16, p2Valid := true, p2Kind := .cls, p2Mask := 0x06#32 }

theorem inSet_holds (ctl : Ctl) (l : List Inputs) :
    HoldsSequence (.setBbm 0x106#32) 0x03#32 (inSet ctl l) :=
  ⟨idling 0x03#32 [], _, rfl, rfl, rfl, rfl, rfl, rfl, rfl, rfl, fun _ => ⟨rfl, rfl⟩⟩

theorem inSet_sound (l : List Inputs) : (inSet .seq l).Sound ∧ (inSet .man l).Sound :=
  ⟨sound_inputs (s := inSet .seq []) ⟨by decide, by decide, by decide, by decide⟩ l,
    sound_inputs (s := inSet .man []) ⟨by decide, by decide, by decide, by decide⟩ l⟩

/-- In the first phase, at its last moment and in the second phase. -/
theorem witness_BreakBeforeMakeStates :
    (∃ (s : State) (r t : Mask) (l rest : List Inputs), s.Sound ∧ HoldsSequence (.setBbm t) r s ∧
      s.inputs = l ++ rest ∧ noReset l = true ∧ ticks l < s.cfg.tRel ∧ s.ctl = .man) ∧
    (∃ (s : State) (r t : Mask) (l rest : List Inputs), s.Sound ∧ HoldsSequence (.setBbm t) r s ∧
      s.inputs = l ++ rest ∧ noReset l = true ∧ s.cfg.tRel ≤ ticks l ∧
      ticks l < s.cfg.tRel + s.cfg.tOp) :=
  ⟨⟨inSet .man [tick], 0x03#32, 0x106#32, [tick], [], (inSet_sound _).2, inSet_holds _ _, rfl, by decide,
      by decide, rfl⟩,
    ⟨inSet .seq [tick, quietBeat, tick, tick], 0x03#32, 0x106#32, [tick, quietBeat, tick, tick], [],
      (inSet_sound _).1, inSet_holds _ _, rfl, by decide, by decide, by decide⟩⟩

/-- A state in the first phase of `SET_MBB 0x06` from 0x03. -/
def inSetMbb (l : List Inputs) : State :=
  { idling 0x07#32 l with
    seq := .busy, ctl := .seq, dly := 2#16, p2Valid := true, p2Kind := .opn, p2Mask := 0x01#32 }

theorem inSetMbb_holds (l : List Inputs) : HoldsSequence (.setMbb 0x06#32) 0x03#32 (inSetMbb l) :=
  ⟨idling 0x03#32 [], _, rfl, rfl, rfl, rfl, rfl, rfl, rfl, rfl, fun _ => ⟨rfl, rfl⟩⟩

theorem inSetMbb_sound (l : List Inputs) : (inSetMbb l).Sound :=
  sound_inputs (s := inSetMbb []) ⟨by decide, by decide, by decide, by decide⟩ l

theorem witness_MakeBeforeBreakStates :
    (∃ (s : State) (r t : Mask) (l rest : List Inputs), s.Sound ∧ HoldsSequence (.setMbb t) r s ∧
      s.inputs = l ++ rest ∧ noReset l = true ∧ ticks l < s.cfg.tOp) ∧
    (∃ (s : State) (r t : Mask) (l rest : List Inputs), s.Sound ∧ HoldsSequence (.setMbb t) r s ∧
      s.inputs = l ++ rest ∧ noReset l = true ∧ s.cfg.tOp ≤ ticks l ∧
      ticks l < s.cfg.tOp + s.cfg.tRel) :=
  ⟨⟨inSetMbb [tick], 0x03#32, 0x06#32, [tick], [], inSetMbb_sound _, inSetMbb_holds _, rfl, by decide,
      by decide⟩,
    ⟨inSetMbb [tick, tick], 0x03#32, 0x06#32, [tick, tick], [], inSetMbb_sound _, inSetMbb_holds _, rfl,
      by decide, by decide⟩⟩

/-- A state in its last phase with one tick to go. -/
def lastPhase (ctl : Ctl) (l : List Inputs) : State :=
  { idling 0x02#32 l with seq := .busy, ctl := ctl, dly := 1#16 }

theorem lastPhase_sound (l : List Inputs) : (lastPhase .seq l).Sound ∧ (lastPhase .man l).Sound :=
  ⟨sound_inputs (s := lastPhase .seq []) ⟨by decide, by decide, by decide, by decide⟩ l,
    sound_inputs (s := lastPhase .man []) ⟨by decide, by decide, by decide, by decide⟩ l⟩

theorem witness_PhaseEndsWithItsLastTick :
    (∃ (s : State) (l rest : List Inputs), s.Sound ∧ s.seq = .busy ∧ s.p2Valid = false ∧
      s.inputs = l ++ rest ∧ noReset l = true ∧ ticks l < s.dly.toNat) ∧
    (∃ (s : State) (l rest : List Inputs), s.Sound ∧ s.seq = .busy ∧ s.p2Valid = false ∧
      s.inputs = l ++ rest ∧ noReset l = true ∧ Waits s.dly.toNat l ∧ s.ctl = .seq) ∧
    (∃ (s : State) (l rest : List Inputs), s.Sound ∧ s.seq = .busy ∧ s.p2Valid = false ∧
      s.inputs = l ++ rest ∧ noReset l = true ∧ Waits s.dly.toNat l ∧ s.ctl = .man) :=
  ⟨⟨lastPhase .seq [quietBeat], [quietBeat], [], (lastPhase_sound _).1, rfl, rfl, rfl, by decide,
      by decide⟩,
    ⟨lastPhase .seq [quietBeat, tick], [quietBeat, tick], [], (lastPhase_sound _).1, rfl, rfl, rfl,
      by decide, ⟨by decide, by decide, ⟨_, rfl, rfl⟩⟩, rfl⟩,
    ⟨lastPhase .man [tick], [tick], [], (lastPhase_sound _).2, rfl, rfl, rfl,
      by decide, ⟨by decide, by decide, ⟨_, rfl, rfl⟩⟩, rfl⟩⟩

/-- A step that answers a next state with what a claim asks of it. -/
def StepsTo (s : State) (p : State → Bool) : Prop :=
  ∃ t, step s = .next t ∧ s.input.rst = false ∧ p t = true

theorem stepsTo {s : State} {p : State → Bool} (h : after (step s) p = some true)
    (hr : s.input.rst = false) : StepsTo s p := by
  unfold after at h
  split at h
  · rename_i t ht
    cases hp : p t with
    | true => exact ⟨t, ht, hr, hp⟩
    | false =>
      rw [hp] at h
      cases h
  · cases h
  · cases h

/-- Relays changed by a command's start, by a manual action and by a second phase. -/
theorem witness_RelaysChangeOnlyByPhaseWrites :
    StepsTo (idling 0x05#32 [word 4 true false]) (fun t => t.relay != 0x05#32) ∧
    StepsTo { idling 0x05#32 [tick] with now := 4#32, acc := 1#2 } (fun t => t.relay != 0x05#32) ∧
    StepsTo { inSet .seq [tick] with dly := 1#16 } (fun t => t.relay != 0x02#32) :=
  ⟨stepsTo (by decide) rfl, stepsTo (by decide) rfl, stepsTo (by decide) rfl⟩

theorem witness_DebouncerStep : StepsTo (idling 0#32 [buttons 1#2]) (fun t => t.acc == 1#2) :=
  stepsTo (by decide) rfl

theorem witness_SampledButtonIsNotQuiet :
    StepsTo (idling 0#32 [buttons 2#2]) (fun t => !t.quiet) ∧
    StepsTo (State.resetWith { small with wDeb := 0 } [buttons 2#2] 0) (fun t => t.quiet) :=
  ⟨stepsTo (by decide) rfl, stepsTo (by decide) rfl⟩

theorem witness_PendingEventsAreKept :
    ({ idling 0#32 [buttons 1#2] with acc := 2#2 } : State).fires = false ∧
    StepsTo { idling 0#32 [buttons 1#2] with acc := 2#2 } (fun t => t.acc == 3#2) :=
  ⟨by decide, stepsTo (by decide) rfl⟩

/-- One tick after a Cycle press, with the inputs `l` to come. -/
def pressed (w : Nat) (l : List Inputs) : State :=
  { State.resetWith { small with wDeb := w } l 0 with now := 0#32, last := 0xFFFFFFFF#32, acc := 1#2 }

/-- A press, on the wrap of the tick counter: inside the window of 3 ticks, at its end, and W_DEB = 0. -/
theorem witness_PressIsReportedAfterTheWindow :
    ((pressed 3 [tick, tick]).Sound ∧ (pressed 3 [tick, tick]).acc ≠ 0#2 ∧
      (pressed 3 [tick, tick]).now = (pressed 3 [tick, tick]).last + 1#32 ∧
      ticks [tick, tick] < 3 ∧ noReset [tick, tick] = true ∧
      ∀ I ∈ [tick, tick], I.btnRaw = 0#2 ∧ I.cmdValid = false) ∧
    ((pressed 3 [tick, tick, tick, tick]).Sound ∧ ticks [tick, quietBeat, tick, tick] = 3 ∧
      noReset [tick, quietBeat, tick, tick] = true ∧
      (∀ I ∈ [tick, quietBeat, tick, tick], I.btnRaw = 0#2 ∧ I.cmdValid = false) ∧
      (∀ I, [tick, quietBeat, tick, tick].getLast? = some I → I.tick = true)) ∧
    ((pressed 0 []).Sound ∧ ticks [] = 0 ∧ noReset [] = true ∧ ([] : List Inputs).getLast? = none) :=
  ⟨⟨⟨by decide, by decide, by decide, by decide⟩, by decide, by decide, by decide, by decide, by decide⟩,
    ⟨⟨by decide, by decide, by decide, by decide⟩, by decide, by decide, by decide,
      fun I h => by cases h; rfl⟩,
    ⟨⟨by decide, by decide, by decide, by decide⟩, rfl, rfl, rfl⟩⟩

/-- A quiet event set `ev` in C_IDLE. -/
def quietEvents (p : Policy) (ev : BitVec 2) (l : List Inputs) : State :=
  { State.resetWith { small with cyclePolicy := p } l 0 with relay := 0x05#32, now := 4#32, acc := ev }

theorem quietEvents_sound (p : Policy) (l : List Inputs) :
    (quietEvents p 1#2 l).Sound ∧ (quietEvents p 2#2 l).Sound ∧
      (quietEvents p 1#2 l).quiet = true ∧ (quietEvents p 2#2 l).quiet = true := by
  have h : ∀ p : Policy, (quietEvents p 1#2 []).Sound ∧ (quietEvents p 2#2 []).Sound ∧
      (quietEvents p 1#2 []).quiet = true ∧ (quietEvents p 2#2 []).quiet = true := by
    intro p
    cases p <;> exact ⟨⟨by decide, by decide, by decide, by decide⟩,
      ⟨by decide, by decide, by decide, by decide⟩, by decide, by decide⟩
  exact h p

theorem witness_ManualActionGoesFirst :
    (∃ s : State, s.Sound ∧ s.ctl = .idle ∧ s.quiet = true ∧ s.input.rst = false ∧
      s.acc.getLsbD 1 = true) ∧
    (∃ s : State, s.Sound ∧ s.ctl = .idle ∧ s.quiet = true ∧ s.input.rst = false ∧
      s.acc.getLsbD 1 = false ∧ s.cfg.cyclePolicy = .bbm) ∧
    (∃ s : State, s.Sound ∧ s.ctl = .idle ∧ s.quiet = true ∧ s.input.rst = false ∧
      s.acc.getLsbD 1 = false ∧ s.cfg.cyclePolicy = .mbb) :=
  ⟨⟨quietEvents .bbm 2#2 [word 8 true false], (quietEvents_sound _ _).2.1, rfl,
      (quietEvents_sound _ _).2.2.2, rfl, by decide⟩,
    ⟨quietEvents .bbm 1#2 [tick], (quietEvents_sound _ _).1, rfl, (quietEvents_sound _ _).2.2.1, rfl,
      by decide, rfl⟩,
    ⟨quietEvents .mbb 1#2 [tick], (quietEvents_sound _ _).1, rfl, (quietEvents_sound _ _).2.2.1, rfl,
      by decide, rfl⟩⟩

theorem witness_ManualActionRunsToIdle :
    (∃ (s : State) (I : Inputs) (l rest : List Inputs), s.Sound ∧ s.ctl = .idle ∧ s.quiet = true ∧
      I.rst = false ∧ s.inputs = I :: (l ++ rest) ∧ s.acc.getLsbD 1 = true ∧ Waits s.cfg.tRel l) ∧
    (∃ (s : State) (I : Inputs) (l rest : List Inputs), s.Sound ∧ s.ctl = .idle ∧ s.quiet = true ∧
      I.rst = false ∧ s.inputs = I :: (l ++ rest) ∧ s.acc.getLsbD 1 = false ∧
      Waits (s.cfg.tRel + s.cfg.tOp) l) :=
  ⟨⟨quietEvents .bbm 2#2 [tick, tick, tick], tick, [tick, tick], [], (quietEvents_sound _ _).2.1, rfl,
      (quietEvents_sound _ _).2.2.2, rfl, rfl, by decide, by decide, by decide, ⟨_, rfl, rfl⟩⟩,
    ⟨quietEvents .mbb 1#2 [tick, tick, tick, tick, tick], tick, [tick, tick, tick, tick], [],
      (quietEvents_sound _ _).1, rfl, (quietEvents_sound _ _).2.2.1, rfl, rfl, by decide, by decide,
      by decide, ⟨_, rfl, rfl⟩⟩⟩

/-- A state that offers the ACK. -/
def offering (l : List Inputs) : State := { idling 0x05#32 l with ctl := .rsp, rbuf := [0#32] }

theorem witness_ControlTransitions :
    StepsTo { idling 0x05#32 [tick] with now := 4#32, acc := 1#2 } (fun t => t.ctl == .man) ∧
    StepsTo (idling 0x05#32 [tick]) (fun t => t.ctl == .idle) ∧
    StepsTo (idling 0x05#32 [word 1 false false]) (fun t => t.ctl == .args) ∧
    StepsTo (idling 0x05#32 [word 1 true false]) (fun t => t.ctl == .rsp) ∧
    StepsTo (inArgs .opn 0#32 [tick]) (fun t => t.ctl == .args) ∧
    StepsTo (inArgs .opn 0#32 [word 1 false false]) (fun t => t.ctl == .args) ∧
    StepsTo (inArgs .opn 0#32 [word 1 true false]) (fun t => t.ctl == .seq) ∧
    StepsTo (lastPhase .seq [tick]) (fun t => t.ctl == .rsp) ∧
    StepsTo (lastPhase .man [tick]) (fun t => t.ctl == .idle) ∧
    StepsTo (inSet .man [tick]) (fun t => t.ctl == .man) ∧
    StepsTo (offering [tickBeat]) (fun t => t.ctl == .idle) ∧
    StepsTo (offering [tick]) (fun t => t.ctl == .rsp) :=
  ⟨stepsTo (by decide) rfl, stepsTo (by decide) rfl, stepsTo (by decide) rfl, stepsTo (by decide) rfl,
    stepsTo (by decide) rfl, stepsTo (by decide) rfl, stepsTo (by decide) rfl, stepsTo (by decide) rfl,
    stepsTo (by decide) rfl, stepsTo (by decide) rfl, stepsTo (by decide) rfl, stepsTo (by decide) rfl⟩

theorem witness_NothingMovesWhileBusy :
    ((inSet .seq []).Invariants ∧ (inSet .seq []).seq = .busy) ∧
    (offering []).Invariants ∧ ((offering []).outputs false).rspValid = true := by decide

theorem witness_ManualEventOutputs :
    StepsTo { idling 0x05#32 [tick] with now := 4#32, acc := 1#2 } (fun t => t.mevStb) ∧
    StepsTo { idling 0x05#32 [tick] with mev := 1#2, mevStb := true } (fun t => !t.mevStb) :=
  ⟨stepsTo (by decide) rfl, stepsTo (by decide) rfl⟩

/-- The two words of a packet with a step between them, for the runs below. -/
def twoWords (a b : Nat) : List Inputs := [word a false false, tick, word b true false]

/-- `CLOSE (@1)` runs for T_OP = 2 ticks, `SET 6` for 4. -/
theorem witness_MutatingCommandRunsToItsAck :
    (∃ (c : Command) (s : State) (l w rest : List Inputs), s.Sound ∧ s.ctl = .idle ∧ s.quiet = false ∧
      c.wellFormed s.cfg.n s.cfg.qMax = true ∧ c.instr.mutating = true ∧ s.inputs = l ++ w ++ rest ∧
      Delivers (encodeCommand c) l ∧ Waits (c.delay s.cfg) w ∧ c.instr = .cls) ∧
    (∃ (c : Command) (s : State) (l w rest : List Inputs), s.Sound ∧ s.ctl = .idle ∧ s.quiet = false ∧
      c.wellFormed s.cfg.n s.cfg.qMax = true ∧ c.instr.mutating = true ∧ s.inputs = l ++ w ++ rest ∧
      Delivers (encodeCommand c) l ∧ Waits (c.delay s.cfg) w ∧ c.instr = .set) :=
  ⟨⟨⟨.cls, [.entry (.single 1#8)]⟩, idling 0x05#32 (twoWords 2 1 ++ [tick, tick]), twoWords 2 1,
      [tick, tick], [], ⟨by decide, by decide, by decide, by decide⟩, rfl, by decide, by decide, rfl, rfl,
      ⟨by decide, by decide, ⟨_, rfl, rfl⟩, ⟨_, rfl, rfl⟩⟩, ⟨by decide, by decide, ⟨_, rfl, rfl⟩⟩, rfl⟩,
    ⟨⟨.set, [.number 6#32]⟩, idling 0x05#32 (twoWords 6 6 ++ [tick, tick, tick, tick]), twoWords 6 6,
      [tick, tick, tick, tick], [], ⟨by decide, by decide, by decide, by decide⟩, rfl, by decide,
      by decide, rfl, rfl, ⟨by decide, by decide, ⟨_, rfl, rfl⟩, ⟨_, rfl, rfl⟩⟩,
      ⟨by decide, by decide, ⟨_, rfl, rfl⟩⟩, rfl⟩⟩

theorem witness_QueryAnswersAtItsLastWord :
    ∃ (c : Command) (s : State) (l rest : List Inputs), s.Sound ∧ s.ctl = .idle ∧ s.quiet = false ∧
      c.wellFormed s.cfg.n s.cfg.qMax = true ∧ c.instr.mutating = false ∧ s.inputs = l ++ rest ∧
      Delivers (encodeCommand c) l :=
  ⟨⟨.clsQ, [.entry (.range 1#8 4#8)]⟩, idling 0x05#32 (twoWords 3 0x40000104), twoWords 3 0x40000104, [],
    ⟨by decide, by decide, by decide, by decide⟩, rfl, by decide, by decide, rfl, rfl,
    ⟨by decide, by decide, ⟨_, rfl, rfl⟩, ⟨_, rfl, rfl⟩⟩⟩

/-- `SET` without its argument is the packet of no well-formed command: it has one word. -/
theorem set_alone_is_ill_formed (n q : Nat) (c : Command) (h : c.wellFormed n q = true) :
    encodeCommand c ≠ [⟨0x00000006#32, true, false⟩] := by
  obtain ⟨i, args⟩ := c
  cases args with
  | nil =>
    cases i with
    | opn | cls | clsQ | set | setMbb =>
      rw [show Command.wellFormed n q _ = false from rfl] at h
      cases h
    | opnAll | stateQ | getQ | ident => decide
  | cons a as =>
    cases as with
    | nil => simp [encodeCommand, packet]
    | cons b bs => simp [encodeCommand, packet]

theorem witness_IllFormedPacketAnswersError :
    ∃ (ps : List PortWord) (s : State) (l rest : List Inputs), s.Sound ∧ s.ctl = .idle ∧
      s.quiet = false ∧ framed ps = true ∧
      (∀ c : Command, c.wellFormed s.cfg.n s.cfg.qMax = true → encodeCommand c ≠ ps) ∧
      s.inputs = l ++ rest ∧ Delivers ps l :=
  ⟨[⟨0x00000006#32, true, false⟩], idling 0x05#32 [word 6 true false], [word 6 true false], [],
    ⟨by decide, by decide, by decide, by decide⟩, rfl, by decide, rfl,
    fun c h => set_alone_is_ill_formed _ _ c h, rfl,
    ⟨by decide, by decide, ⟨_, rfl, rfl⟩, ⟨_, rfl, rfl⟩⟩⟩

/-- C54 with one argument word. -/
theorem witness_IllegalHeaderAnswersOpcodeError :
    ∃ (h : PortWord) (ps : List PortWord) (s : State) (l rest : List Inputs), s.Sound ∧ s.ctl = .idle ∧
      s.quiet = false ∧ framed (h :: ps) = true ∧ (∀ i : Instr, decodeHeader h.data h.err ≠ .ok i) ∧
      s.inputs = l ++ rest ∧ Delivers (h :: ps) l :=
  ⟨⟨0xA#32, false, false⟩, [⟨1#32, true, false⟩], idling 0x05#32 (twoWords 0xA 1), twoWords 0xA 1, [],
    ⟨by decide, by decide, by decide, by decide⟩, rfl, by decide, rfl,
    witness_HeaderIsLegalExactlyForNineWords.1, rfl, ⟨by decide, by decide, ⟨_, rfl, rfl⟩, ⟨_, rfl, rfl⟩⟩⟩

theorem witness_ResponseIsTakenInOrder :
    ∃ (s : State) (l rest : List Inputs), s.Sound ∧ s.ctl = .rsp ∧ s.ridx = 0#16 ∧ s.inputs = l ++ rest ∧
      noReset l = true ∧ readies l = s.rbuf.length ∧ ∃ I, l.getLast? = some I ∧ I.rspReady = true :=
  ⟨{ offering [tick, tickBeat, tick, tickBeat] with rbuf := [0x20000001#32, 5#32] },
    [tick, tickBeat, tick, tickBeat], [], ⟨by decide, by decide, by decide, by decide⟩, rfl, rfl, rfl,
    by decide, by decide, ⟨_, rfl, rfl⟩⟩

/-- A packet that is none of a well-formed command, a query and a mutating command. -/
theorem witness_StepCounts :
    (∃ (ps : List PortWord) (s : State) (m : Nat) (rest : List Inputs), s.Sound ∧ s.ctl = .idle ∧
      s.acc = 0#2 ∧ framed ps = true ∧ s.inputs = backToBack ps m ++ rest ∧ 1 ≤ m ∧
      ∀ c : Command, c.wellFormed s.cfg.n s.cfg.qMax = true → encodeCommand c ≠ ps) ∧
    (∃ (ps : List PortWord) (s : State) (m : Nat) (rest : List Inputs) (c : Command), s.Sound ∧
      s.ctl = .idle ∧ s.acc = 0#2 ∧ framed ps = true ∧ s.inputs = backToBack ps m ++ rest ∧
      c.wellFormed s.cfg.n s.cfg.qMax = true ∧ encodeCommand c = ps ∧ c.instr.mutating = false ∧
      (answer s.cfg s.relay c).length ≤ m) ∧
    (∃ (ps : List PortWord) (s : State) (m : Nat) (rest : List Inputs) (c : Command), s.Sound ∧
      s.ctl = .idle ∧ s.acc = 0#2 ∧ framed ps = true ∧ s.inputs = backToBack ps m ++ rest ∧
      c.wellFormed s.cfg.n s.cfg.qMax = true ∧ encodeCommand c = ps ∧ c.instr.mutating = true ∧
      c.delay s.cfg + 1 ≤ m) :=
  ⟨⟨[⟨0x00000006#32, true, false⟩], idling 0#32 (backToBack [⟨0x00000006#32, true, false⟩] 1), 1, [],
      ⟨by decide, by decide, by decide, by decide⟩, rfl, rfl, rfl, rfl, by decide,
      fun c h => set_alone_is_ill_formed _ _ c h⟩,
    ⟨[⟨0x00000008#32, true, false⟩], idling 0#32 (backToBack [⟨0x00000008#32, true, false⟩] 2), 2, [],
      ⟨.getQ, []⟩, ⟨by decide, by decide, by decide, by decide⟩, rfl, rfl, rfl, rfl, by decide, by decide,
      rfl, by decide⟩,
    ⟨[⟨0x00000004#32, true, false⟩], idling 0#32 (backToBack [⟨0x00000004#32, true, false⟩] 3), 3, [],
      ⟨.opnAll, []⟩, ⟨by decide, by decide, by decide, by decide⟩, rfl, rfl, rfl, rfl, by decide,
      by decide, rfl, by decide⟩⟩

theorem witness_ResetGivesResetState :
    ∃ (s : State) (I : Inputs) (rest : List Inputs), s.cfg.Legal ∧ s.inputs = I :: rest ∧ I.rst = true ∧
      s.relay ≠ 0#32 :=
  ⟨idling 0x05#32 [{ tick with rst := true }], _, _, by decide, rfl, rfl, by decide⟩

theorem witness_StepRunsTheDecodedCommand :
    (∃ (s : State) (i : Instr), s.Sound ∧ s.input.rst = false ∧ s.input.cmdValid = true ∧ s.ctl = .idle ∧
      s.quiet = false ∧ decodeHeader s.input.cmdData s.input.cmdErr = .ok i) ∧
    (∃ (s : State) (i : Instr), s.Sound ∧ s.input.rst = false ∧ s.input.cmdValid = true ∧ s.ctl = .args ∧
      instrOfOpcode s.op = some i) :=
  ⟨⟨idling 0x05#32 [word 4 true false], .opnAll, sound_idling, rfl, rfl, rfl, by decide, by decide⟩,
    ⟨inArgs .set 0x05#32 [word 6 true false], .set, ⟨by decide, by decide, by decide, by decide⟩, rfl, rfl,
      rfl, by decide⟩⟩

theorem witness_WhereAStepStops :
    (∃ s : State, ¬ s.cfg.Legal) ∧
    (∃ s : State, s.cfg.Legal ∧ s.input.rst = false ∧ ¬ s.Invariants) ∧
    (∃ s : State, s.cfg.Legal ∧ s.input.rst = false ∧ s.Invariants ∧ ¬ s.Representable) :=
  ⟨⟨State.resetWith { small with n := 33 } [tick] 0, by decide⟩,
    ⟨{ idling 0#32 [tick] with seq := .busy }, by decide⟩, ⟨idling 0x10#32 [tick], by decide⟩⟩

theorem witness_StepKeepsSoundness : ∃ s t : State, s.Sound ∧ step s = .next t := by
  obtain ⟨t, h⟩ := next_of_after (r := step (idling 0x05#32 [word 4 true false])) (by decide)
  exact ⟨_, t, sound_idling, h⟩

theorem witness_ResetIsSound :
    Config.reference.Legal ∧ ({ small with n := 1 } : Config).Legal ∧
      ({ small with n := 32 } : Config).Legal := by decide

theorem witness_SoundStatesAlwaysStep : ∃ s : State, s.Sound :=
  ⟨_, sound_idling⟩

theorem witness_ParametersNeverChange :
    (∃ s t : State, step s = .next t) ∧ ∃ (i : Instr) (s t : State), exec i s = .next t :=
  ⟨⟨_, next_of_after (r := step (idling 0x05#32 [word 4 true false])) (by decide)⟩,
    ⟨.getQ, _, next_of_after (r := exec .getQ (idling 0x05#32 [word 8 true false])) (by decide)⟩⟩

theorem witness_ResponsesStayWellFormed :
    ∃ s t : State, s.Sound ∧ s.ErrKnown ∧ s.ResponseKnown ∧ step s = .next t ∧ s.ctl = .rsp := by
  obtain ⟨t, h⟩ := next_of_after (r := step (offering [tickBeat])) (by decide)
  refine ⟨_, t, ⟨by decide, by decide, by decide, by decide⟩, by decide, fun _ => ?_, h, rfl⟩
  exact ⟨by decide, by decide, .inr ⟨by decide, by decide, fun _ => rfl, fun h => absurd h (by decide),
    fun h => absurd h (by decide), fun h => absurd h (by decide)⟩⟩

theorem witness_ResponsesFit : small.Legal ∧ (List.replicate 32 true).length ≤ small.qMax := by decide

end Sys2Proof.Tests
end

/-! The parameters (R30): each operation of a step keeps `cfg`, hence every command and every step does. -/

namespace Sys2Proof.Machine

/-! The operations -/

@[simp] theorem State.resetStep_cfg (s : State) : s.resetStep.cfg = s.cfg := rfl

@[simp] theorem State.endStep_cfg (s : State) (accR : BitVec 2) (t : State) :
    (s.endStep accR t).cfg = t.cfg := by
  simp [State.endStep]

@[simp] theorem received_cfg (i : Instr) (s : State) : (received i s).cfg = s.cfg := by
  rw [received_frame]

theorem rbStart_keeps_cfg {s t : State} {spec : SeqSpec} (h : s.rbStart spec = .next t) :
    t.cfg = s.cfg := by
  obtain ⟨-, rfl⟩ := rbStart_next h
  simp

@[simp] theorem advanced_cfg (s : State) : (advanced s).cfg = s.cfg := by
  unfold advanced
  rcases rbAdvance_cases s.input.tick { s with mevStb := false } with
    ⟨-, hr⟩ | ⟨-, -, hr⟩ | ⟨-, -, -, hr⟩ | ⟨-, -, -, -, hr⟩ | ⟨-, -, -, -, hr⟩ <;> simp [hr]

/-! The commands -/

theorem action_keeps_cfg {i : Instr} {s t : State} (h : action i s = .next t) : t.cfg = s.cfg := by
  obtain ⟨-, l, rfl⟩ | ⟨-, -, spec, u, hu, rfl⟩ := action_next h
  · exact State.respond_cfg l s
  · have hcfg : u.cfg = s.cfg := rbStart_keeps_cfg hu
    exact hcfg

theorem exec_keeps_cfg {i : Instr} {s t : State} (h : exec i s = .next t) : t.cfg = s.cfg := by
  obtain ⟨-, he⟩ | ⟨-, -, he⟩ | ⟨-, -, -, he⟩ | ⟨-, -, -, he⟩ := exec_cases i s <;> rw [he] at h
  · cases h
    rfl
  · cases h
    exact received_cfg i s
  · cases h
    simp
  · exact (action_keeps_cfg h).trans (received_cfg i s)

theorem illegalWord_keeps_cfg {s t : State} (h : s.illegalWord = .next t) : t.cfg = s.cfg := by
  obtain ⟨u, hu, -, ht⟩ := illegalWord_next h
  have hcfg : u.cfg = s.cfg := by
    rw [hu]
    split <;> simp
  obtain ⟨-, rfl⟩ | ⟨-, rfl⟩ := ht <;> exact hcfg

theorem commandWord_keeps_cfg {s t : State} (h : s.commandWord = .next t) : t.cfg = s.cfg := by
  obtain ⟨i, hi, -⟩ | ⟨hi, -⟩ := commandWord_cases s <;> rw [hi] at h
  · exact exec_keeps_cfg h
  · exact illegalWord_keeps_cfg h

/-! The step -/

theorem manual_keeps_cfg {s t : State} {ev : BitVec 2} (h : s.manual ev = .next t) :
    t.cfg = s.cfg := by
  obtain ⟨-, u, hu, rfl⟩ := manual_next h
  have hcfg : u.cfg = s.cfg := rbStart_keeps_cfg hu
  exact hcfg

/-- Every row of R119 keeps the parameters: a manual action, a command word, or a change of registers. -/
theorem control_keeps_cfg {s t : State} {ev : BitVec 2} {done : Bool}
    (h : s.control ev done = .next t) : t.cfg = s.cfg := by
  obtain ⟨-, -, hm⟩ | ⟨-, -, -, hw⟩ | ⟨-, -, hw⟩ | ⟨-, -, rfl⟩ | ⟨-, -, rfl⟩ | ⟨-, -, rfl⟩ |
    ⟨-, -, rfl⟩ | ⟨-, -, rfl⟩ | ⟨-, -, rfl⟩ := control_next h
  case inl => exact manual_keeps_cfg hm
  case inr.inl | inr.inr.inl => exact commandWord_keeps_cfg hw
  all_goals simp

theorem runStep_keeps_cfg {s t : State} (h : s.runStep = .next t) : t.cfg = s.cfg := by
  obtain ⟨u, hu, rfl⟩ := runStep_next h
  calc (s.endStep _ u).cfg = u.cfg := State.endStep_cfg s _ u
    _ = (advanced s).cfg := control_keeps_cfg hu
    _ = s.cfg := advanced_cfg s

theorem step_keeps_cfg {s t : State} (h : step s = .next t) : t.cfg = s.cfg := by
  obtain ⟨-, ⟨-, rfl⟩ | ⟨-, -, -, hrun⟩⟩ := step_next h
  · exact State.resetStep_cfg s
  · exact runStep_keeps_cfg hrun

/-- Settles O58: no reset, running step or command writes `cfg`. -/
theorem parametersNeverChange : Obligations.ParametersNeverChange :=
  ⟨fun _ _ => step_keeps_cfg, fun _ _ _ => exec_keeps_cfg⟩

end Sys2Proof.Machine

/-! Header words (R57, R58, R62): the decoder takes exactly the words that the encoder gives, unmarked. -/

namespace Sys2Proof

/-- The assignment of opcodes (R58) and the opcode of a command are inverse. -/
theorem instrOfOpcode_eq_some_iff {op : BitVec 4} {i : Instr} :
    instrOfOpcode op = some i ↔ op = i.opcode := by
  constructor
  · intro h
    unfold instrOfOpcode at h
    split at h <;> cases h
    all_goals exact BitVec.eq_of_toNat_eq ‹_›
  · rintro rfl
    cases i <;> rfl

/-- The fields of R57 make up the whole header word. -/
theorem eq_encodeHeader_iff {w : Word} {i : Instr} :
    w = encodeHeader i ↔ headerRsv w = 0#28 ∧ headerOpcode w = i.opcode := by
  have hw : w.toNat < 2 ^ 32 := w.isLt
  have hop : i.opcode.toNat < 2 ^ 4 := i.opcode.isLt
  simp only [encodeHeader, headerRsv, headerOpcode, ← BitVec.toNat_inj, BitVec.extractLsb'_toNat,
    BitVec.toNat_setWidth, BitVec.toNat_ofNat, Nat.shiftRight_eq_div_pow]
  omega

theorem decodeHeader_eq_ok_iff {w : Word} {marked : Bool} {i : Instr} :
    decodeHeader w marked = .ok i ↔ marked = false ∧ w = encodeHeader i := by
  rw [eq_encodeHeader_iff, ← instrOfOpcode_eq_some_iff]
  unfold decodeHeader
  by_cases hm : marked = true
  · simp [hm]
  · by_cases hr : headerRsv w = 0#28
    · cases instrOfOpcode (headerOpcode w) <;> simp [hm, hr]
    · simp [hm, hr]

/-- E_OPCODE is the only error a header is rejected with (R62, R96). -/
theorem decodeHeader_eq_opcode_of_error {w : Word} {marked : Bool} {c : ErrCode}
    (h : decodeHeader w marked = .error c) : c = .opcode := by
  unfold decodeHeader at h
  split at h
  · exact (Except.error.inj h).symm
  · split at h
    · exact (Except.error.inj h).symm
    · split at h
      · cases h
      · exact (Except.error.inj h).symm

/-- Settles O2: the nine words of R58 are the encoder's header words, and a header has one error only. -/
theorem headerIsLegalExactlyForNineWords : Obligations.HeaderIsLegalExactlyForNineWords := by
  intro w marked
  constructor
  · intro i
    refine decodeHeader_eq_ok_iff.trans (and_congr_right' ?_)
    cases i <;> simp [encodeHeader, Instr.opcode]
  · intro hno
    cases h : decodeHeader w marked with
    | ok i => exact absurd h (hno i)
    | error c => rw [decodeHeader_eq_opcode_of_error h]

end Sys2Proof

/-! The relay bank (R73, R74): what each of the four starts writes. -/

namespace Sys2Proof.Machine

/-- Settles O31: an idle sequencer writes the first phase and holds the second one, where `phaseWrite` and
`holdSecond` at the phases of R74 are the record updates of the statement; a busy one faults. -/
theorem sequenceStartWritesTheFirstPhase : Obligations.SequenceStartWritesTheFirstPhase := by
  intro s m
  constructor
  · intro hidle
    exact ⟨rbStart_idle hidle (.opn m), rbStart_idle hidle (.cls m),
      rbStart_idle hidle (.setBbm m), rbStart_idle hidle (.setMbb m)⟩
  · intro hbusy spec
    exact rbStart_busy hbusy spec

end Sys2Proof.Machine

/-! The debouncer (R86, R88, R89): its registers are written at the end of a step alone, by `endStep`; the
sequencer and every row of R119 keep them. -/

namespace Sys2Proof.Machine

/-- The registers of the debouncer and the tick counter its stamps are taken from (R21). -/
def State.debouncer (s : State) : BitVec 32 × BitVec 32 × BitVec 2 :=
  (s.now, s.last, s.acc)

theorem State.debouncer_eq_iff {s t : State} :
    t.debouncer = s.debouncer ↔ t.now = s.now ∧ t.last = s.last ∧ t.acc = s.acc := by
  simp [State.debouncer]

/-! The operations -/

theorem received_debouncer (i : Instr) (s : State) :
    (received i s).debouncer = s.debouncer := by
  rw [received_frame]
  rfl

theorem advanced_debouncer (s : State) : (advanced s).debouncer = s.debouncer := by
  rw [State.debouncer_eq_iff]
  unfold advanced
  rcases rbAdvance_cases s.input.tick { s with mevStb := false } with
    ⟨-, hr⟩ | ⟨-, -, hr⟩ | ⟨-, -, -, hr⟩ | ⟨-, -, -, -, hr⟩ | ⟨-, -, -, -, hr⟩ <;> simp [hr]

theorem rbStart_keeps_debouncer {s t : State} {spec : SeqSpec} (h : s.rbStart spec = .next t) :
    t.debouncer = s.debouncer := by
  obtain ⟨-, rfl⟩ := rbStart_next h
  simp [State.debouncer_eq_iff]

/-! The commands -/

theorem action_keeps_debouncer {i : Instr} {s t : State} (h : action i s = .next t) :
    t.debouncer = s.debouncer := by
  obtain ⟨-, l, rfl⟩ | ⟨-, -, spec, u, hu, rfl⟩ := action_next h
  · rfl
  · have hdeb : u.debouncer = s.debouncer := rbStart_keeps_debouncer hu
    exact hdeb

theorem exec_keeps_debouncer {i : Instr} {s t : State} (h : exec i s = .next t) :
    t.debouncer = s.debouncer := by
  obtain ⟨-, he⟩ | ⟨-, -, he⟩ | ⟨-, -, -, he⟩ | ⟨-, -, -, he⟩ := exec_cases i s <;> rw [he] at h
  case inr.inr.inr => exact (action_keeps_debouncer h).trans (received_debouncer i s)
  case inl =>
    cases h
    rfl
  all_goals
    cases h
    exact received_debouncer i s

theorem illegalWord_keeps_debouncer {s t : State} (h : s.illegalWord = .next t) :
    t.debouncer = s.debouncer := by
  obtain ⟨u, hu, -, ht⟩ := illegalWord_next h
  have hdeb : u.debouncer = s.debouncer := by
    rw [hu]
    split <;> simp [State.debouncer_eq_iff]
  obtain ⟨-, rfl⟩ | ⟨-, rfl⟩ := ht <;> exact hdeb

theorem commandWord_keeps_debouncer {s t : State} (h : s.commandWord = .next t) :
    t.debouncer = s.debouncer := by
  obtain ⟨i, hi, -⟩ | ⟨hi, -⟩ := commandWord_cases s <;> rw [hi] at h
  · exact exec_keeps_debouncer h
  · exact illegalWord_keeps_debouncer h

/-! The step -/

theorem manual_keeps_debouncer {s t : State} {ev : BitVec 2} (h : s.manual ev = .next t) :
    t.debouncer = s.debouncer := by
  obtain ⟨-, u, hu, rfl⟩ := manual_next h
  have hdeb : u.debouncer = s.debouncer := rbStart_keeps_debouncer hu
  exact hdeb

/-- Every row of R119 keeps the debouncer: a manual action, a command word, or a change of `ctl` and the
response registers. -/
theorem control_keeps_debouncer {s t : State} {ev : BitVec 2} {done : Bool}
    (h : s.control ev done = .next t) : t.debouncer = s.debouncer := by
  obtain ⟨-, -, hm⟩ | ⟨-, -, -, hw⟩ | ⟨-, -, hw⟩ | ⟨-, -, rfl⟩ | ⟨-, -, rfl⟩ | ⟨-, -, rfl⟩ |
    ⟨-, -, rfl⟩ | ⟨-, -, rfl⟩ | ⟨-, -, rfl⟩ := control_next h
  case inl => exact manual_keeps_debouncer hm
  case inr.inl | inr.inr.inl => exact commandWord_keeps_debouncer hw
  all_goals simp [State.debouncer_eq_iff]

/-- The end of a step on a state that kept the debouncer of `s`: the sample of the step joins what the read
left, stamped with the time of `s`, and the tick counts (R86, R89). -/
theorem endStep_debouncer {s u : State} (accR : BitVec 2) (h : u.debouncer = s.debouncer) :
    (s.endStep accR u).debouncer =
      (if s.input.tick then s.now + 1#32 else s.now,
        if s.input.tick = true ∧ s.input.btnRaw ≠ 0#2 then s.now else s.last,
        accR ||| (if s.input.tick then s.input.btnRaw else 0#2)) := by
  obtain ⟨hnow, hlast, -⟩ := State.debouncer_eq_iff.mp h
  cases htick : s.input.tick <;> simp [State.debouncer, State.endStep, htick, hnow, hlast]

/-- What the read leaves in the accumulator, by whether it fires (R88). -/
theorem debRead_snd (s : State) :
    (s.debRead (s.ctl == .idle)).2 = if s.fires then 0#2 else s.acc := by
  rw [debRead_eq]
  split <;> rfl

/-- Settles O36: nothing before the end of a step writes the debouncer, and the end adds the sample to what
the read left. -/
theorem debouncerStep : Obligations.DebouncerStep := by
  intro s t hstep hrst
  obtain ⟨-, ⟨hreset, -⟩ | ⟨-, -, -, hrun⟩⟩ := step_next hstep
  · rw [hrst] at hreset
    cases hreset
  · obtain ⟨u, hu, rfl⟩ := runStep_next hrun
    have hkept : u.debouncer = s.debouncer :=
      (control_keeps_debouncer hu).trans (advanced_debouncer s)
    have hend := endStep_debouncer (s.debRead (s.ctl == .idle)).2 hkept
    rw [debRead_snd] at hend ⊢
    simpa only [State.debouncer, Prod.mk.injEq] using hend

end Sys2Proof.Machine

/-! The manual event outputs (R117, R123): a fired read is the one thing that writes `mev` and raises
`mev_stb`; a command word, the sequencer and the other rows of R119 leave both registers alone. -/

namespace Sys2Proof.Machine

/-! What a command word can do -/

/-- `r` differs from `s` in the dispatcher's registers alone (R96, R97). -/
def State.DispatchedFrom (s r : State) : Prop :=
  r = { s with
    op := r.op, err := r.err, nargs := r.nargs
    amask := r.amask, aval := r.aval, qflags := r.qflags }

/-- If a command word answers a next state, the dispatcher took the word, and then the state is left, waits
for more words, offers a response or waits for a started sequence (R96, R97, R100, R119). -/
theorem commandWord_next {s t : State} (h : s.commandWord = .next t) :
    ∃ r, s.DispatchedFrom r ∧
      (t = r ∨ t = { r with ctl := .args } ∨ (∃ l, t = r.respond l) ∨
        ∃ spec u, r.rbStart spec = .next u ∧ t = { u with ctl := .seq }) := by
  obtain ⟨i, hw, -⟩ | ⟨hw, -⟩ := commandWord_cases s <;> rw [hw] at h
  · obtain ⟨-, he⟩ | ⟨-, -, he⟩ | ⟨-, -, -, he⟩ | ⟨-, -, -, he⟩ := exec_cases i s <;> rw [he] at h
    · cases h
      exact ⟨s, rfl, .inl rfl⟩
    · cases h
      exact ⟨received i s, received_frame i s, .inr (.inl rfl)⟩
    · cases h
      exact ⟨received i s, received_frame i s, .inr (.inr (.inl ⟨_, rfl⟩))⟩
    · refine ⟨received i s, received_frame i s, .inr (.inr ?_)⟩
      obtain ⟨-, hresp⟩ | ⟨-, -, hstart⟩ := action_next h
      · exact .inl hresp
      · exact .inr hstart
  · obtain ⟨r, hr, -, ht⟩ := illegalWord_next h
    have hframe : s.DispatchedFrom r := by
      rw [hr]
      split
      · rfl
      · rw [State.DispatchedFrom, countArg_frame]
    obtain ⟨-, rfl⟩ | ⟨-, rfl⟩ := ht
    · exact ⟨r, hframe, .inr (.inr (.inl ⟨_, rfl⟩))⟩
    · exact ⟨r, hframe, .inr (.inl rfl)⟩

/-! The registers `mev` and `mev_stb` -/

/-- The registers behind `man_evt` and `man_evt_stb` (R123). -/
def State.event (s : State) : BitVec 2 × Bool :=
  (s.mev, s.mevStb)

theorem rbStart_keeps_event {s t : State} {spec : SeqSpec} (h : s.rbStart spec = .next t) :
    t.event = s.event := by
  obtain ⟨-, rfl⟩ := rbStart_next h
  simp [State.event]

theorem commandWord_keeps_event {s t : State} (h : s.commandWord = .next t) : t.event = s.event := by
  obtain ⟨r, hr, ht⟩ := commandWord_next h
  have hevent : r.event = s.event := by
    rw [hr]
    rfl
  obtain rfl | rfl | ⟨l, rfl⟩ | ⟨spec, u, hu, rfl⟩ := ht
  case inr.inr.inr => exact (rbStart_keeps_event hu).trans hevent
  all_goals exact hevent

/-- Without a fired event set, every row of R119 keeps the two registers. -/
theorem control_keeps_event {s t : State} {done : Bool} (h : s.control 0#2 done = .next t) :
    t.event = s.event := by
  obtain ⟨-, hne, -⟩ | ⟨-, -, -, hw⟩ | ⟨-, -, hw⟩ | ⟨-, -, rfl⟩ | ⟨-, -, rfl⟩ | ⟨-, -, rfl⟩ |
    ⟨-, -, rfl⟩ | ⟨-, -, rfl⟩ | ⟨-, -, rfl⟩ := control_next h
  case inl => exact absurd rfl hne
  case inr.inl | inr.inr.inl => exact commandWord_keeps_event hw
  all_goals simp [State.event]

/-- With a fired event set, C_IDLE shows the set for the manual action it starts (R117). -/
theorem control_shows_event {s t : State} {ev : BitVec 2} {done : Bool} (hidle : s.ctl = .idle)
    (hev : ev ≠ 0#2) (h : s.control ev done = .next t) : t.event = (ev, true) := by
  have hmanual : s.control ev done = s.manual ev := by
    simp [State.control, hidle, hev]
  obtain ⟨-, u, -, rfl⟩ := manual_next (hmanual ▸ h)
  rfl

/-! The step -/

/-- Before the control multiplexer acts, `mev_stb` falls and the sequencer writes its registers alone. -/
theorem advanced_frame (s : State) :
    advanced s = { s with
      mevStb := false, relay := (advanced s).relay, seq := (advanced s).seq, dly := (advanced s).dly
      p2Valid := (advanced s).p2Valid, p2Kind := (advanced s).p2Kind
      p2Mask := (advanced s).p2Mask } := by
  unfold advanced
  rcases rbAdvance_cases s.input.tick { s with mevStb := false } with
    ⟨-, hr⟩ | ⟨-, -, hr⟩ | ⟨-, -, -, hr⟩ | ⟨-, -, -, -, hr⟩ | ⟨-, -, -, -, hr⟩ <;> rw [hr]
  case inr.inr.inr.inl => cases s.p2Kind <;> rfl

theorem endStep_event (s : State) (accR : BitVec 2) (t : State) :
    (s.endStep accR t).event = t.event := by
  simp [State.event, State.endStep]

/-- A read fires in C_IDLE alone, and with an event pending (R88, R116). -/
theorem idle_and_acc_ne_zero_of_fires {s : State} (h : s.fires = true) :
    s.ctl = .idle ∧ s.acc ≠ 0#2 := by
  obtain ⟨hidle, hacc, -⟩ : s.ctl = .idle ∧ s.acc ≠ 0#2 ∧ s.cfg.wDeb < (s.now - s.last).toNat := by
    simpa [State.fires, State.quiet] using h
  exact ⟨hidle, hacc⟩

theorem runStep_event {s t : State} (h : s.runStep = .next t) :
    t.event = if s.fires then (s.acc, true) else (s.mev, false) := by
  obtain ⟨u, hu, rfl⟩ := runStep_next h
  rw [endStep_event]
  rw [debRead_eq] at hu
  cases hf : s.fires <;> rw [hf] at hu
  case true =>
    obtain ⟨hidle, hacc⟩ := idle_and_acc_ne_zero_of_fires hf
    have hctl : (advanced s).ctl = s.ctl := by rw [advanced_frame]
    exact control_shows_event (hctl.trans hidle) hacc hu
  case false =>
    have hadv : (advanced s).event = (s.mev, false) := by
      rw [advanced_frame]
      rfl
    exact (control_keeps_event hu).trans hadv

/-- Settles O44: outside a reset a step is a running one, and the two outputs show the registers. -/
theorem manualEventOutputs : Obligations.ManualEventOutputs := by
  intro s t hstep hrst
  obtain ⟨-, ⟨hreset, -⟩ | ⟨-, -, -, hrun⟩⟩ := step_next hstep
  · rw [hrst] at hreset
    cases hreset
  · have hevent := runStep_event hrun
    cases hf : s.fires <;> rw [hf] at hevent
    all_goals
      obtain ⟨hmev, hstb⟩ := Prod.mk.inj hevent
      exact ⟨hstb, hmev⟩

end Sys2Proof.Machine

/-! Entry words, argument words and packets (R55 to R62): the decoder takes exactly what the encoder
gives. -/

namespace Sys2Proof

/-- Settles O1: the decoder evaluated on eight closed words. -/
theorem writtenOutWordsDecode : Obligations.WrittenOutWordsDecode := by
  unfold Obligations.WrittenOutWordsDecode
  decide

/-! Entry words -/

theorem entryKind_toNat (w : Word) : (entryKind w).toNat = w.toNat / 2 ^ 30 := by
  have hw : w.toNat < 2 ^ 32 := w.isLt
  simp only [entryKind, BitVec.extractLsb'_toNat, Nat.shiftRight_eq_div_pow]
  omega

theorem entryRsv_toNat (w : Word) : (entryRsv w).toNat = w.toNat / 2 ^ 16 % 2 ^ 14 := by
  simp only [entryRsv, BitVec.extractLsb'_toNat, Nat.shiftRight_eq_div_pow]

theorem entryFrom_toNat (w : Word) : (entryFrom w).toNat = w.toNat / 2 ^ 8 % 2 ^ 8 := by
  simp only [entryFrom, BitVec.extractLsb'_toNat, Nat.shiftRight_eq_div_pow]

theorem entryCh_toNat (w : Word) : (entryCh w).toNat = w.toNat % 2 ^ 8 := by
  simp [entryCh, BitVec.extractLsb'_toNat]

theorem encodeEntry_single_toNat (ch : Byte) : (encodeEntry (.single ch)).toNat = ch.toNat := by
  have hch : ch.toNat < 2 ^ 8 := ch.isLt
  simp only [encodeEntry, BitVec.toNat_append, BitVec.toNat_ofNat]
  rw [← Nat.shiftLeft_add_eq_or_of_lt hch]
  simp [Nat.shiftLeft_eq]

theorem encodeEntry_range_toNat (first last : Byte) :
    (encodeEntry (.range first last)).toNat = 2 ^ 30 + first.toNat * 2 ^ 8 + last.toNat := by
  have hf : first.toNat < 2 ^ 8 := first.isLt
  have hl : last.toNat < 2 ^ 8 := last.isLt
  simp only [encodeEntry, BitVec.toNat_append, BitVec.toNat_ofNat]
  rw [← Nat.shiftLeft_add_eq_or_of_lt hl, ← Nat.shiftLeft_add_eq_or_of_lt hf,
    ← Nat.shiftLeft_add_eq_or_of_lt (by decide)]
  simp only [Nat.shiftLeft_eq]
  omega

/-- The fields of R60 make up the whole word of a single channel. -/
theorem eq_encodeEntry_single_iff {w : Word} {ch : Byte} :
    w = encodeEntry (.single ch) ↔
      entryKind w = 0#2 ∧ entryRsv w = 0#14 ∧ entryFrom w = 0#8 ∧ entryCh w = ch := by
  have hw : w.toNat < 2 ^ 32 := w.isLt
  have hch : ch.toNat < 2 ^ 8 := ch.isLt
  simp only [← BitVec.toNat_inj, encodeEntry_single_toNat, entryKind_toNat, entryRsv_toNat,
    entryFrom_toNat, entryCh_toNat, BitVec.toNat_ofNat]
  omega

/-- The fields of R60 make up the whole word of a range. -/
theorem eq_encodeEntry_range_iff {w : Word} {first last : Byte} :
    w = encodeEntry (.range first last) ↔
      entryKind w = 1#2 ∧ entryRsv w = 0#14 ∧ entryFrom w = first ∧ entryCh w = last := by
  have hw : w.toNat < 2 ^ 32 := w.isLt
  have hf : first.toNat < 2 ^ 8 := first.isLt
  have hl : last.toNat < 2 ^ 8 := last.isLt
  simp only [← BitVec.toNat_inj, encodeEntry_range_toNat, entryKind_toNat, entryRsv_toNat,
    entryFrom_toNat, entryCh_toNat, BitVec.toNat_ofNat]
  omega

/-- The four kinds of an entry word (R60, R62). -/
theorem entryKind_cases (w : Word) :
    entryKind w = 0#2 ∨ entryKind w = 1#2 ∨ entryKind w = 2#2 ∨ entryKind w = 3#2 := by
  generalize entryKind w = k
  revert k
  decide

/-- The words rejected with E_MALFORMED, by their fields (R62, R98). -/
def MalformedEntry (w : Word) (marked : Bool) : Prop :=
  marked = true ∨ entryKind w = 2#2 ∨ entryKind w = 3#2 ∨ entryRsv w ≠ 0#14 ∨
    (entryKind w = 0#2 ∧ entryFrom w ≠ 0#8)

/-- What the decoder makes of an entry word. -/
theorem decodeEntry_cases (w : Word) (marked : Bool) :
    (MalformedEntry w marked ∧ decodeEntry w marked = .error .malformed) ∨
    (marked = false ∧ w = encodeEntry (.single (entryCh w)) ∧
      decodeEntry w marked = .ok (.single (entryCh w))) ∨
    (marked = false ∧ w = encodeEntry (.range (entryFrom w) (entryCh w)) ∧
      decodeEntry w marked = .ok (.range (entryFrom w) (entryCh w))) := by
  unfold decodeEntry MalformedEntry
  rw [eq_encodeEntry_single_iff, eq_encodeEntry_range_iff]
  by_cases hm : marked = true
  · simp [hm]
  by_cases hr : entryRsv w = 0#14
  · rcases entryKind_cases w with hk | hk | hk | hk
    · by_cases hf : entryFrom w = 0#8 <;> simp [hm, hr, hk, hf]
    all_goals simp [hm, hr, hk]
  · simp [hm, hr]

/-- The word of an element is none of the malformed ones. -/
theorem not_malformedEntry_encodeEntry (e : Entry) : ¬ MalformedEntry (encodeEntry e) false := by
  unfold MalformedEntry
  cases e with
  | single ch =>
    obtain ⟨hk, hr, hf, -⟩ := eq_encodeEntry_single_iff.mp (rfl : encodeEntry (.single ch) = _)
    simp [hk, hr, hf]
  | range first last =>
    obtain ⟨hk, hr, -, -⟩ := eq_encodeEntry_range_iff.mp (rfl : encodeEntry (.range first last) = _)
    simp [hk, hr]

theorem encodeEntry_injective : Function.Injective encodeEntry := by
  intro e f h
  have hnat := congrArg BitVec.toNat h
  cases e with
  | single ch =>
    have hch : ch.toNat < 2 ^ 8 := ch.isLt
    cases f with
    | single ch' =>
      rw [encodeEntry_single_toNat, encodeEntry_single_toNat, BitVec.toNat_inj] at hnat
      rw [hnat]
    | range a b =>
      rw [encodeEntry_single_toNat, encodeEntry_range_toNat] at hnat
      omega
  | range first last =>
    have hlast : last.toNat < 2 ^ 8 := last.isLt
    cases f with
    | single ch' =>
      have hch' : ch'.toNat < 2 ^ 8 := ch'.isLt
      rw [encodeEntry_single_toNat, encodeEntry_range_toNat] at hnat
      omega
    | range a b =>
      have hb : b.toNat < 2 ^ 8 := b.isLt
      rw [encodeEntry_range_toNat, encodeEntry_range_toNat] at hnat
      rw [BitVec.eq_of_toNat_eq (by omega : first.toNat = a.toNat),
        BitVec.eq_of_toNat_eq (by omega : last.toNat = b.toNat)]

theorem decodeEntry_encodeEntry (e : Entry) : decodeEntry (encodeEntry e) false = .ok e := by
  rcases decodeEntry_cases (encodeEntry e) false with ⟨hbad, -⟩ | ⟨-, hw, hd⟩ | ⟨-, hw, hd⟩
  · exact absurd hbad (not_malformedEntry_encodeEntry e)
  all_goals rw [hd, ← encodeEntry_injective hw]

theorem decodeEntry_eq_ok_iff {w : Word} {marked : Bool} {e : Entry} :
    decodeEntry w marked = .ok e ↔ marked = false ∧ w = encodeEntry e := by
  constructor
  · intro h
    rcases decodeEntry_cases w marked with ⟨-, hd⟩ | ⟨hm, hw, hd⟩ | ⟨hm, hw, hd⟩ <;> rw [hd] at h
    · cases h
    all_goals
      cases h
      exact ⟨hm, hw⟩
  · rintro ⟨rfl, rfl⟩
    exact decodeEntry_encodeEntry e

theorem decodeEntry_eq_malformed_iff {w : Word} {marked : Bool} :
    decodeEntry w marked = .error .malformed ↔ MalformedEntry w marked := by
  rcases decodeEntry_cases w marked with ⟨hbad, hd⟩ | ⟨rfl, hw, hd⟩ | ⟨rfl, hw, hd⟩ <;> rw [hd]
  · simp [hbad]
  all_goals
    rw [hw]
    simp [not_malformedEntry_encodeEntry]

/-- Settles O3: the decoder's answer on an unmarked word is the encoder's graph. -/
theorem entryWordsAndElementsCorrespond : Obligations.EntryWordsAndElementsCorrespond := by
  intro w e
  simpa using decodeEntry_eq_ok_iff (w := w) (marked := false) (e := e)

/-- The malformed words by their number: each field of R60 is a quotient and a remainder of it. -/
theorem malformedEntry_iff_toNat {w : Word} {marked : Bool} :
    MalformedEntry w marked ↔
      marked = true ∨ 2 ≤ w.toNat / 2 ^ 30 ∨ w.toNat / 2 ^ 16 % 2 ^ 14 ≠ 0 ∨
        (w.toNat / 2 ^ 30 = 0 ∧ w.toNat / 2 ^ 8 % 2 ^ 8 ≠ 0) := by
  have hw : w.toNat < 2 ^ 32 := w.isLt
  simp only [MalformedEntry, Ne, ← BitVec.toNat_inj, entryKind_toNat, entryRsv_toNat,
    entryFrom_toNat, BitVec.toNat_ofNat]
  refine or_congr_right ?_
  omega

/-- Settles O4: the rejected words by their fields, and the fields by the number of the word. -/
theorem malformedEntryWords : Obligations.MalformedEntryWords :=
  fun _ _ => decodeEntry_eq_malformed_iff.trans malformedEntry_iff_toNat

/-! Argument words -/

/-- A port word without its `cmd_last`: what the encoder gives for an argument. -/
def PortWord.body (p : PortWord) : Word × Bool :=
  (p.data, p.err)

theorem decodeNumber_eq_ok_iff {w v : Word} {marked : Bool} :
    decodeNumber w marked = .ok v ↔ marked = false ∧ w = v := by
  unfold decodeNumber
  cases marked <;> simp

theorem decodeArg_eq_ok_iff {cl : ArgClass} {p : PortWord} {a : Arg} :
    decodeArg cl p = .ok a ↔ Arg.ofClass cl a = true ∧ encodeArg a = p.body := by
  cases cl with
  | list =>
    have hd : decodeArg .list p = .ok a ↔ ∃ e, decodeEntry p.data p.err = .ok e ∧ .entry e = a := by
      unfold decodeArg
      cases decodeEntry p.data p.err <;> simp [Except.map]
    rw [hd]
    cases a with
    | entry e =>
      simp only [decodeEntry_eq_ok_iff, Arg.ofClass, encodeArg, PortWord.body, Arg.entry.injEq,
        exists_eq_right, true_and, Prod.mk.injEq]
      exact ⟨fun ⟨hm, hw⟩ => ⟨hw.symm, hm.symm⟩, fun ⟨hw, hm⟩ => ⟨hm.symm, hw.symm⟩⟩
    | number v | ignored w m => simp [Arg.ofClass]
  | num =>
    have hd : decodeArg .num p = .ok a ↔
        ∃ v, decodeNumber p.data p.err = .ok v ∧ .number v = a := by
      unfold decodeArg
      cases decodeNumber p.data p.err <;> simp [Except.map]
    rw [hd]
    cases a with
    | number v =>
      simp only [decodeNumber_eq_ok_iff, Arg.ofClass, encodeArg, PortWord.body, Arg.number.injEq,
        exists_eq_right, true_and, Prod.mk.injEq]
      exact ⟨fun ⟨hm, hw⟩ => ⟨hw.symm, hm.symm⟩, fun ⟨hw, hm⟩ => ⟨hm.symm, hw.symm⟩⟩
    | entry e | ignored w m => simp [Arg.ofClass]
  | none =>
    cases a with
    | ignored w m =>
      simp [decodeArg, Arg.ofClass, encodeArg, PortWord.body, eq_comm]
    | entry e | number v => simp [decodeArg, Arg.ofClass]

theorem decodeArgs_nil_eq_ok_iff {cl : ArgClass} {as : List Arg} :
    decodeArgs cl [] = .ok as ↔ as = [] := by
  simp [decodeArgs, eq_comm]

theorem decodeArgs_cons_eq_ok_iff {cl : ArgClass} {p : PortWord} {ps : List PortWord}
    {as : List Arg} :
    decodeArgs cl (p :: ps) = .ok as ↔
      ∃ a l, decodeArg cl p = .ok a ∧ decodeArgs cl ps = .ok l ∧ as = a :: l := by
  rw [decodeArgs]
  cases decodeArg cl p with
  | error c => simp
  | ok a => cases decodeArgs cl ps <;> simp [eq_comm]

theorem decodeArgs_eq_ok_iff {cl : ArgClass} {ps : List PortWord} {as : List Arg} :
    decodeArgs cl ps = .ok as ↔
      as.all (Arg.ofClass cl) = true ∧ as.map encodeArg = ps.map PortWord.body := by
  induction ps generalizing as with
  | nil => cases as <;> simp [decodeArgs_nil_eq_ok_iff]
  | cons p ps ih =>
    rw [decodeArgs_cons_eq_ok_iff]
    simp only [decodeArg_eq_ok_iff, ih]
    cases as with
    | nil => simp
    | cons a l =>
      simp only [List.cons.injEq, List.all_cons, Bool.and_eq_true, List.map_cons]
      constructor
      · rintro ⟨a, l, ⟨hc, he⟩, ⟨hcs, hes⟩, rfl, rfl⟩
        exact ⟨⟨hc, hcs⟩, he, hes⟩
      · rintro ⟨⟨hc, hcs⟩, he, hes⟩
        exact ⟨a, l, ⟨hc, he⟩, ⟨hcs, hes⟩, rfl, rfl⟩

theorem checkCount_eq_ok_iff {cl : ArgClass} {k : Nat} :
    checkCount cl k = .ok () ↔ cl.countOk k = true := by
  cases cl with
  | none => simp [checkCount, ArgClass.countOk]
  | list => by_cases hk : k = 0 <;> simp [checkCount, ArgClass.countOk, hk]; omega
  | num =>
    by_cases hk : k = 0
    · simp [checkCount, ArgClass.countOk, hk]
    · by_cases hk' : 1 < k <;> simp [checkCount, ArgClass.countOk, hk, hk'] <;> omega

/-! Packets -/

theorem framed_packet {ws : List (Word × Bool)} (h : ws ≠ []) : framed (packet ws) = true := by
  induction ws with
  | nil => exact absurd rfl h
  | cons w ws ih =>
    cases ws with
    | nil => rfl
    | cons w' ws =>
      have ih := ih (List.cons_ne_nil _ _)
      cases ws with
      | nil => simp [packet, framed]
      | cons w'' ws => simpa [packet, framed] using ih

theorem map_body_packet (ws : List (Word × Bool)) : (packet ws).map PortWord.body = ws := by
  induction ws with
  | nil => rfl
  | cons w ws ih =>
    cases ws with
    | nil => rfl
    | cons w' ws => simpa [packet, PortWord.body] using ih

/-- A framed list of words is the packet of its words (R55). -/
theorem packet_map_body {ps : List PortWord} (h : framed ps = true) :
    packet (ps.map PortWord.body) = ps := by
  induction ps with
  | nil => rfl
  | cons p ps ih =>
    cases ps with
    | nil =>
      have hlast : p.last = true := h
      simp [packet, PortWord.body, ← hlast]
    | cons q ps =>
      obtain ⟨hlast, hrest⟩ : p.last = false ∧ framed (q :: ps) = true := by
        simpa [framed] using h
      have ih := ih hrest
      simp only [List.map_cons] at ih ⊢
      simp [packet, PortWord.body, ← hlast] at ih ⊢
      exact ih

theorem eq_packet_iff {ps : List PortWord} {ws : List (Word × Bool)} (h : ws ≠ []) :
    packet ws = ps ↔ framed ps = true ∧ ps.map PortWord.body = ws := by
  constructor
  · rintro rfl
    exact ⟨framed_packet h, map_body_packet ws⟩
  · rintro ⟨hf, rfl⟩
    exact packet_map_body hf

theorem encodeCommand_eq_iff {c : Command} {ps : List PortWord} :
    encodeCommand c = ps ↔ framed ps = true ∧
      ps.map PortWord.body = (encodeHeader c.instr, false) :: c.args.map encodeArg :=
  eq_packet_iff (List.cons_ne_nil _ _)

theorem decodeCommand_eq_ok_iff_parts {ps : List PortWord} {c : Command} :
    decodeCommand ps = .ok c ↔ framed ps = true ∧ ∃ h rest, ps = h :: rest ∧
      decodeHeader h.data h.err = .ok c.instr ∧ decodeArgs c.instr.argClass rest = .ok c.args ∧
      c.instr.argClass.countOk c.args.length = true := by
  constructor
  · intro hdec
    unfold decodeCommand at hdec
    split at hdec
    · cases hdec
    · rename_i hf
      cases ps with
      | nil => cases hdec
      | cons h rest =>
        dsimp only at hdec
        split at hdec
        · cases hdec
        · rename_i i hh
          split at hdec
          · cases hdec
          · rename_i args ha
            split at hdec
            · cases hdec
            · rename_i hc
              cases hdec
              exact ⟨by simpa using hf, h, rest, rfl, hh, ha, checkCount_eq_ok_iff.mp hc⟩
  · rintro ⟨hf, h, rest, rfl, hh, ha, hc⟩
    simp [decodeCommand, hf, hh, ha, checkCount_eq_ok_iff.mpr hc]

/-- The decoder of packets is the inverse of the encoder on the commands of R59. -/
theorem decodeCommand_eq_ok_iff {ps : List PortWord} {c : Command} :
    decodeCommand ps = .ok c ↔ c.shapeOk = true ∧ encodeCommand c = ps := by
  rw [decodeCommand_eq_ok_iff_parts, encodeCommand_eq_iff, Command.shapeOk, Bool.and_eq_true]
  constructor
  · rintro ⟨hf, h, rest, rfl, hh, ha, hc⟩
    obtain ⟨hm, hw⟩ := decodeHeader_eq_ok_iff.mp hh
    obtain ⟨hcl, he⟩ := decodeArgs_eq_ok_iff.mp ha
    refine ⟨⟨hc, hcl⟩, hf, ?_⟩
    rw [List.map_cons, he, PortWord.body, hm, hw]
  · rintro ⟨⟨hc, hcl⟩, hf, hbody⟩
    cases ps with
    | nil => cases hbody
    | cons h rest =>
      obtain ⟨hhead, hrest⟩ := List.cons.inj hbody
      obtain ⟨hw, hm⟩ := Prod.mk.inj hhead
      exact ⟨hf, h, rest, rfl, decodeHeader_eq_ok_iff.mpr ⟨hm, hw⟩,
        decodeArgs_eq_ok_iff.mpr ⟨hcl, hrest.symm⟩, hc⟩

/-- Settles O5: the decoder takes the encoder's packet. -/
theorem decodingAnEncodedCommandGivesItBack : Obligations.DecodingAnEncodedCommandGivesItBack :=
  fun _ hshape => decodeCommand_eq_ok_iff.mpr ⟨hshape, rfl⟩

/-- Settles O6: the decoder takes no other packet. -/
theorem decodedPacketsAreEncodedCommands : Obligations.DecodedPacketsAreEncodedCommands :=
  fun _ _ hdec => decodeCommand_eq_ok_iff.mp hdec

end Sys2Proof

/-! The parameters and the masks (R6, R7, R11, R19, R118): bits of masks, CYCLE_NEXT, and the
lengths of the responses. -/

namespace Sys2Proof

/-! Masks -/

theorem bit_getLsbD {c k : Nat} (hk : k < 32) : (bit c).getLsbD k = decide (k = c - 1) := by
  rw [bit, BitVec.getLsbD_shiftLeft, BitVec.getLsbD_one, Bool.eq_iff_iff]
  simp only [hk, Bool.and_eq_true, Bool.not_eq_true', decide_eq_true_eq, decide_eq_false_iff_not,
    true_and]
  omega

theorem maskOf_getLsbD (cs : List Nat) {k : Nat} (hk : k < 32) :
    (maskOf cs).getLsbD k = true ↔ ∃ c ∈ cs, k = c - 1 := by
  induction cs with
  | nil => simp [maskOf]
  | cons c cs ih => simp [maskOf, bit_getLsbD hk, ih]

theorem mem_channels {lo hi c : Nat} : c ∈ channels lo hi ↔ lo ≤ c ∧ c ≤ hi := by
  simp only [channels, List.mem_map, List.mem_range]
  constructor
  · rintro ⟨j, hj, rfl⟩
    omega
  · rintro ⟨hlo, hhi⟩
    exact ⟨c - lo, by omega, by omega⟩

@[simp] theorem length_channels (lo hi : Nat) : (channels lo hi).length = hi + 1 - lo := by
  simp [channels]

/-- Settles O7: bit `k` is the bit of channel `k + 1`. -/
theorem rangeMaskHasTheBitsOfItsChannels : Obligations.RangeMaskHasTheBitsOfItsChannels := by
  intro lo hi k hlo hhi hk
  rw [maskOf_getLsbD _ hk]
  simp only [mem_channels]
  constructor
  · rintro ⟨c, ⟨hlc, hch⟩, rfl⟩
    omega
  · rintro ⟨hlk, hkh⟩
    exact ⟨k + 1, ⟨hlk, hkh⟩, rfl⟩

/-! `VALID` and the cut to N bits (R7, R68) -/

theorem valid_getLsbD (c : Config) {k : Nat} (hk : k < 32) :
    c.valid.getLsbD k = decide (k < c.n) := by
  simp only [Config.valid, BitVec.getLsbD_ofNat, Nat.testBit_two_pow_sub_one, hk, decide_true,
    Bool.true_and]

theorem cut_getLsbD (c : Config) (m : Mask) {k : Nat} (hk : k < 32) :
    (c.cut m).getLsbD k = (m.getLsbD k && decide (k < c.n)) := by
  simp [Config.cut, valid_getLsbD c hk]

/-- A mask is cut when it has no bit of N or above. -/
theorem cut_eq_self_iff {c : Config} {m : Mask} :
    c.cut m = m ↔ ∀ k, c.n ≤ k → k < 32 → m.getLsbD k = false := by
  constructor
  · intro h k hn hk
    rw [← h, cut_getLsbD c m hk]
    simp [Nat.not_lt.mpr hn]
  · intro h
    refine BitVec.eq_of_getLsbD_eq fun k hk => ?_
    rw [cut_getLsbD c m hk]
    by_cases hn : k < c.n
    · simp [hn]
    · simp [hn, h k (Nat.not_lt.mp hn) hk]

@[simp] theorem cut_cut (c : Config) (m : Mask) : c.cut (c.cut m) = c.cut m := by
  simp [Config.cut, BitVec.and_assoc]

@[simp] theorem cut_zero (c : Config) : c.cut 0#32 = 0#32 := by
  simp [Config.cut]

@[simp] theorem cut_valid (c : Config) : c.cut c.valid = c.valid := by
  simp [Config.cut]

theorem cut_or (c : Config) (a b : Mask) : c.cut (a ||| b) = c.cut a ||| c.cut b := by
  refine BitVec.eq_of_getLsbD_eq fun k _ => ?_
  simp [Config.cut, Bool.and_or_distrib_right]

theorem cut_and_left {c : Config} {a : Mask} (h : c.cut a = a) (b : Mask) :
    c.cut (a &&& b) = a &&& b := by
  calc c.cut (a &&& b) = c.cut a &&& b := by
        simp only [Config.cut, BitVec.and_assoc, BitVec.and_comm b]
    _ = a &&& b := by rw [h]

theorem cut_or_self {c : Config} {a b : Mask} (ha : c.cut a = a) (hb : c.cut b = b) :
    c.cut (a ||| b) = a ||| b := by
  rw [cut_or, ha, hb]

theorem cut_maskOf_channels {c : Config} {lo hi : Nat} (hlo : 1 ≤ lo) (hhi : hi ≤ c.n) :
    c.cut (maskOf (channels lo hi)) = maskOf (channels lo hi) := by
  refine cut_eq_self_iff.mpr fun k hn hk => ?_
  rw [← Bool.not_eq_true, maskOf_getLsbD _ hk]
  rintro ⟨ch, hch, rfl⟩
  have := mem_channels.mp hch
  omega

@[simp] theorem cut_cycleNext (c : Config) (r : Mask) : c.cut (c.cycleNext r) = c.cycleNext r := by
  unfold Config.cycleNext
  split <;> exact cut_cut c _

/-! CYCLE_NEXT (R118) -/

theorem highBelow_eq {m : Mask} {h k : Nat} (hk : h < k) (hbit : m.getLsbD h = true)
    (habove : ∀ j, h < j → j < k → m.getLsbD j = false) : highBelow m k = h := by
  induction k with
  | zero => omega
  | succ k ih =>
    rw [highBelow]
    by_cases hhk : h = k
    · rw [← hhk, if_pos hbit]
    · rw [if_neg (by simp [habove k (by omega) (by omega)])]
      exact ih (by omega) fun j hj hjk => habove j hj (by omega)

theorem cut_eq_self_of_toNat_lt {c : Config} {m : Mask} (h : m.toNat < 2 ^ c.n) :
    c.cut m = m :=
  cut_eq_self_iff.mpr fun k hn _ =>
    Nat.testBit_lt_two_pow (h.trans_le (Nat.pow_le_pow_right (by decide) hn))

/-- Settles O8: the cut relay state is zero, or its highest bit is the highest closed channel's. -/
theorem cycleNextDefault : Obligations.CycleNextDefault := by
  intro c r hlegal htable
  obtain ⟨⟨hn1, hn32⟩, -⟩ := hlegal
  have hnext : c.cycleNext r = c.cut (c.cycleDefault r) := by simp [Config.cycleNext, htable]
  constructor
  · intro hzero
    have hdef : c.cycleDefault r = 1#32 := by simp [Config.cycleDefault, hzero, bit]
    rw [hnext, hdef]
    exact cut_eq_self_of_toNat_lt (Nat.one_lt_two_pow (by omega))
  · intro h hhn hbit habove
    have hcutbit : (c.cut r).getLsbD h = true := by
      simp [cut_getLsbD c r (by omega : h < 32), hbit, hhn]
    have hne : c.cut r ≠ 0#32 := by
      intro hz
      rw [hz] at hcutbit
      simp at hcutbit
    have hhigh : highBit (c.cut r) = h := by
      refine highBelow_eq (by omega) hcutbit fun j hj hj32 => ?_
      rw [cut_getLsbD c r hj32]
      by_cases hjn : j < c.n
      · simp [habove j hj hjn]
      · simp [hjn]
    rw [hnext]
    simp only [Config.cycleDefault, if_neg hne, hhigh]
    split
    · exact cut_zero c
    · refine cut_eq_self_iff.mpr fun k hk hk32 => ?_
      simp only [BitVec.getLsbD_shiftLeft, BitVec.getLsbD_one]
      have : k - (h + 1) ≠ 0 := by omega
      simp [this]

theorem lookup_map_self_eq {f : Mask → Mask} {r : Mask} {l : List Mask} (h : r ∈ l) :
    (l.map fun m => (m, f m)).lookup r = some (f r) := by
  induction l with
  | nil => cases h
  | cons m l ih =>
    rw [List.map_cons, List.lookup_cons]
    by_cases hm : r = m
    · simp [hm]
    · have hr : (r == m) = false := by simpa using hm
      rw [hr]
      exact ih ((List.mem_cons.mp h).resolve_left hm)

theorem exists_list_of_all_masks : ∃ l : List Mask, ∀ r, r ∈ l :=
  ⟨(List.range (2 ^ 32)).map (BitVec.ofNat 32), fun r =>
    List.mem_map.mpr ⟨r.toNat, List.mem_range.mpr r.isLt, by simp⟩⟩

/-- Settles O9: the table with one row for each mask. -/
theorem everyCycleFunctionHasATable : Obligations.EveryCycleFunctionHasATable := by
  intro c f
  obtain ⟨l, hl⟩ := exists_list_of_all_masks
  refine ⟨l.map fun m => (m, f m), fun r => ?_⟩
  have hlook : (l.map fun m => (m, f m)).lookup r = some (f r) := lookup_map_self_eq (hl r)
  unfold Config.cycleNext
  dsimp only
  rw [hlook]
  rfl

namespace Machine

/-! The lengths of the responses (R7, R113) -/

theorem length_dec (ch : Nat) : (dec ch).length = digits ch := by
  unfold dec digits
  split <;> rfl

/-- The decimals of the channels, and a comma after each but the last. -/
theorem length_joinDec (cs : List Nat) :
    (joinDec cs).length = (cs.map digits).sum + (cs.length - 1) := by
  induction cs with
  | nil => rfl
  | cons c cs ih =>
    cases cs with
    | nil => simp [joinDec, length_dec]
    | cons d ds =>
      simp only [joinDec, List.length_append, List.length_cons, length_dec, ih, List.map_cons,
        List.sum_cons]
      omega

theorem length_closedChannels_le (c : Config) (r : Mask) : (closedChannels c r).length ≤ c.n := by
  have := List.length_filter_le (closed r) (channels 1 c.n)
  simpa [closedChannels] using this

theorem length_fmt (c : Config) (r : Mask) :
    (fmt c r).length =
      3 + (((closedChannels c r).map digits).sum + ((closedChannels c r).length - 1)) := by
  simp [fmt, length_joinDec]
  omega

theorem length_fmt_le_strMax (c : Config) (r : Mask) : (fmt c r).length ≤ c.strMax := by
  have hsum : ((closedChannels c r).map digits).sum ≤ ((channels 1 c.n).map digits).sum :=
    (List.filter_sublist.map digits).sum_le_sum (fun _ _ => Nat.zero_le _)
  have hlen := length_closedChannels_le c r
  rw [length_fmt, Config.strMax]
  omega

theorem length_ackRsp_le (c : Config) : ackRsp.length ≤ c.rbufMax :=
  Nat.le_add_right 1 _

theorem length_errorRsp_le (c : Config) (code : BitVec 8) : (errorRsp code).length ≤ c.rbufMax :=
  Nat.le_add_right 1 _

theorem length_flagsRsp_le {c : Config} {fs : List Bool} (h : fs.length ≤ c.qMax) :
    (flagsRsp fs).length ≤ c.rbufMax := by
  simp only [flagsRsp, Config.rbufMax, List.length_cons, List.length_map]
  omega

theorem length_intRsp_le (c : Config) (r : Mask) : (intRsp r).length ≤ c.rbufMax := by
  simp only [intRsp, Config.rbufMax, List.length_cons, List.length_nil]
  omega

theorem length_strRsp_le (c : Config) (r : Mask) : (strRsp c r).length ≤ c.rbufMax := by
  have := length_fmt_le_strMax c r
  simp only [strRsp, Config.rbufMax, List.length_cons, List.length_map]
  omega

theorem length_identRsp_le (c : Config) : (identRsp c).length ≤ c.rbufMax := by
  simp only [identRsp, Config.rbufMax, List.length_cons, List.length_map]
  omega

/-- Settles O60: each response is a header and a payload that RBUF_MAX counts. -/
theorem responsesFit : Obligations.ResponsesFit :=
  fun c r _ code _ hfs =>
    ⟨length_fmt_le_strMax c r, length_ackRsp_le c, length_flagsRsp_le hfs, length_intRsp_le c r,
      length_strRsp_le c r, length_identRsp_le c, length_errorRsp_le c code⟩

end Machine

end Sys2Proof

/-! Command words (R96 to R102): what `exec` does with a header, with each kind of argument word,
and at the end of a command. -/

namespace Sys2Proof.Machine

/-! Headers of responses (R64) -/

theorem hdr_toNat (kind : BitVec 4) (code : BitVec 8) {len : Nat} (h : len < 2 ^ 16) :
    (hdr kind code len).toNat = kind.toNat * 2 ^ 28 + code.toNat * 2 ^ 16 + len := by
  have hc : code.toNat < 2 ^ 8 := code.isLt
  simp only [hdr, BitVec.toNat_append, BitVec.toNat_ofNat, Nat.mod_eq_of_lt h]
  rw [← Nat.shiftLeft_add_eq_or_of_lt h, ← Nat.shiftLeft_add_eq_or_of_lt hc,
    ← Nat.shiftLeft_add_eq_or_of_lt (by decide)]
  simp only [Nat.shiftLeft_eq]
  omega

theorem hdr_eq_ofNat (kind : BitVec 4) (code : BitVec 8) {len : Nat} (h : len < 2 ^ 16) :
    hdr kind code len = BitVec.ofNat 32 (kind.toNat * 2 ^ 28 + code.toNat * 2 ^ 16 + len) := by
  rw [← hdr_toNat kind code h, BitVec.ofNat_toNat, BitVec.setWidth_eq]

theorem errorRsp_eq (code : BitVec 8) :
    errorRsp code = [BitVec.ofNat 32 (0xF0000000 + code.toNat * 2 ^ 16)] := by
  rw [errorRsp, hdr_eq_ofNat errorKind code (by decide)]
  rfl

/-! Words that move (R17, R121) -/

theorem accepts_of_idle {s : State} (hctl : s.ctl = .idle) (hquiet : s.quiet = false)
    (hvalid : s.input.cmdValid = true) : s.accepts = true := by
  simp [State.accepts, State.cmdReady, hctl, hquiet, hvalid]

theorem accepts_of_args {s : State} (hctl : s.ctl = .args) (hvalid : s.input.cmdValid = true) :
    s.accepts = true := by
  simp [State.accepts, State.cmdReady, hctl, hvalid]

/-- Settles O10: the first branch of every command. -/
theorem wordNotTakenHasNoEffect : Obligations.WordNotTakenHasNoEffect := by
  intro i s hmove
  have hmove : s.accepts = false := hmove
  obtain ⟨-, he⟩ | ⟨ha, -⟩ | ⟨ha, -⟩ | ⟨ha, -⟩ := exec_cases i s
  · exact he
  all_goals
    rw [hmove] at ha
    cases ha

/-! The end of a command (R100) -/

theorem finalErr_of_err_ne {s : State} (h : s.err ≠ 0#8) (cl : ArgClass) :
    s.finalErr cl = s.err := by
  simp [State.finalErr, h]

@[simp] theorem finalErr_none (s : State) : s.finalErr .none = s.err := by
  simp [State.finalErr]

theorem finalErr_of_nargs_ne {s : State} (h : s.nargs ≠ 0#16) (cl : ArgClass) :
    s.finalErr cl = s.err := by
  simp [State.finalErr, h]

theorem finalErr_missing {s : State} {cl : ArgClass} (herr : s.err = 0#8) (hcl : cl ≠ .none)
    (hn : s.nargs = 0#16) : s.finalErr cl = 2#8 := by
  simp [State.finalErr, herr, hcl, hn, ErrCode.code]

theorem exec_not_last {i : Instr} {s : State} (ha : s.accepts = true)
    (hl : s.input.cmdLast = false) : exec i s = .next { received i s with ctl := .args } := by
  obtain ⟨hn, -⟩ | ⟨-, -, he⟩ | ⟨-, hn, -⟩ | ⟨-, hn, -⟩ := exec_cases i s
  case inr.inl => exact he
  all_goals
    simp [ha, hl] at hn

theorem exec_last_error {i : Instr} {s : State} {e : BitVec 8} (ha : s.accepts = true)
    (hl : s.input.cmdLast = true) (he : (received i s).finalErr i.argClass = e) (hne : e ≠ 0#8) :
    exec i s = .next ((received i s).respond (errorRsp e)) := by
  subst he
  obtain ⟨hn, -⟩ | ⟨-, hn, -⟩ | ⟨-, -, -, hx⟩ | ⟨-, -, hz, -⟩ := exec_cases i s
  case inr.inr.inl => exact hx
  case inr.inr.inr => exact absurd hz hne
  all_goals
    simp [ha, hl] at hn

theorem exec_last_action {i : Instr} {s : State} (ha : s.accepts = true)
    (hl : s.input.cmdLast = true) (he : (received i s).finalErr i.argClass = 0#8) :
    exec i s = action i (received i s) := by
  obtain ⟨hn, -⟩ | ⟨-, hn, -⟩ | ⟨-, -, hz, -⟩ | ⟨-, -, -, hx⟩ := exec_cases i s
  case inr.inr.inl => exact absurd he hz
  case inr.inr.inr => exact hx
  all_goals
    simp [ha, hl] at hn

/-! Headers (R96) -/

theorem received_idle {s : State} (hctl : s.ctl = .idle) (i : Instr) :
    received i s = s.beginCommand i.opcode 0#8 := by
  simp [received, hctl]

/-- Settles O11: the header's registers, then C_ARGS. -/
theorem headerStartsACommand : Obligations.HeaderStartsACommand := by
  intro i s hctl hquiet hvalid hlast
  rw [exec_not_last (accepts_of_idle hctl hquiet hvalid) hlast, received_idle hctl]
  rfl

/-- Settles O12: no argument word was counted, and the class needs one. -/
theorem missingArgumentAnswersError : Obligations.MissingArgumentAnswersError := by
  intro i s hi hctl hquiet hvalid hlast
  have hcl : i.argClass ≠ .none := by
    cases i <;> simp [Instr.argClass] at hi ⊢
  have hmiss : (received i s).finalErr i.argClass = 2#8 := by
    rw [received_idle hctl]
    exact finalErr_missing rfl hcl rfl
  rw [exec_last_error (accepts_of_idle hctl hquiet hvalid) hlast hmiss (by decide),
    received_idle hctl]
  rfl

/-! Argument words (R97) -/

theorem countArg_eq (s : State) : s.countArg = { s with nargs := argCount s.nargs } := by
  have hlt : s.nargs.toNat < 2 ^ 16 := s.nargs.isLt
  unfold State.countArg argCount
  split
  · rename_i h
    rw [h]
    change s = { s with nargs := 0xFFFF#16 }
    rw [← h]
  · rename_i h
    have hne : s.nargs.toNat ≠ 65535 := fun hn => h (BitVec.eq_of_toNat_eq hn)
    rw [Nat.min_eq_left (by omega), BitVec.ofNat_add, BitVec.ofNat_toNat, BitVec.setWidth_eq]

theorem argCount_ne_zero (k : BitVec 16) : argCount k ≠ 0#16 := by
  intro h
  have := congrArg BitVec.toNat h
  simp only [argCount, BitVec.toNat_ofNat] at this
  omega

theorem argCount_zero : argCount 0#16 = 1#16 := rfl

theorem received_args {s : State} (hctl : s.ctl = .args) (i : Instr) :
    received i s = s.argWord (argRule i) := by
  simp [received, hctl]

theorem received_args_of_err {s : State} (hctl : s.ctl = .args) (herr : s.err ≠ 0#8) (i : Instr) :
    received i s = { s with nargs := argCount s.nargs } := by
  rw [received_args hctl, State.argWord, if_neg herr, countArg_eq]

theorem received_args_of_ok {s : State} (hctl : s.ctl = .args) (herr : s.err = 0#8) (i : Instr) :
    received i s = { argRule i s.input s with nargs := argCount s.nargs } := by
  rw [received_args hctl, State.argWord, if_pos herr, countArg_eq, argRule_frame]

theorem with_ctl_args {s : State} (hctl : s.ctl = .args) : { s with ctl := .args } = s := by
  rw [← hctl]

/-- An argument word that does not end its command leaves C_ARGS as it is. -/
theorem exec_args_not_last {s : State} (hctl : s.ctl = .args) (hvalid : s.input.cmdValid = true)
    (hlast : s.input.cmdLast = false) (i : Instr) : exec i s = .next (received i s) := by
  have hrec : (received i s).ctl = .args := by rw [received_frame, hctl]
  rw [exec_not_last (accepts_of_args hctl hvalid) hlast, with_ctl_args hrec]

/-- In C_ARGS an error that is raised, before or by the last word, is the answer. -/
theorem exec_args_last_error {s : State} {i : Instr} {e : BitVec 8} (hctl : s.ctl = .args)
    (hvalid : s.input.cmdValid = true) (hlast : s.input.cmdLast = true)
    (he : (received i s).err = e) (hne : e ≠ 0#8) :
    exec i s = .next ((received i s).respond (errorRsp e)) :=
  exec_last_error (accepts_of_args hctl hvalid) hlast
    ((finalErr_of_err_ne (by rwa [he]) _).trans he) hne

/-- Settles O13: a raised error is kept and answered. -/
theorem firstErrorWins : Obligations.FirstErrorWins := by
  intro i s hctl herr hvalid
  have hrec := received_args_of_err hctl herr i
  cases hlast : s.input.cmdLast with
  | false =>
    rw [exec_args_not_last hctl hvalid hlast, hrec]
    rfl
  | true =>
    rw [exec_args_last_error hctl hvalid hlast (by rw [hrec]) herr, hrec, errorRsp_eq]
    rfl

/-- Where an argument word is no error, the last one leads to the action. -/
theorem exec_args_last_action {s : State} {i : Instr} (hctl : s.ctl = .args)
    (hvalid : s.input.cmdValid = true) (hlast : s.input.cmdLast = true)
    (herr : (received i s).err = 0#8) (hn : (received i s).nargs ≠ 0#16) :
    exec i s = action i (received i s) :=
  exec_last_action (accepts_of_args hctl hvalid) hlast ((finalErr_of_nargs_ne hn _).trans herr)

/-! Entry words (R98) -/

theorem raise_of_ok {s : State} (herr : s.err = 0#8) (c : ErrCode) :
    s.raise c = { s with err := c.code } := by
  rw [State.raise, if_pos herr]

theorem hasChannel_eq_true {c : Config} {ch : Nat} :
    c.hasChannel ch = true ↔ 1 ≤ ch ∧ ch ≤ c.n := by
  simp [Config.hasChannel]

theorem entryErr_of_malformed {n : Nat} {w : Word} {marked : Bool} (h : MalformedEntry w marked) :
    entryErr n w marked = 3#8 := by
  have h := malformedEntry_iff_toNat.mp h
  unfold entryErr
  dsimp only
  split
  · rfl
  · split
    · rfl
    · rename_i hm hk
      rw [if_pos]
      obtain h | h | h | h := h
      · exact absurd h hm
      · exact absurd (.inl h) hk
      · exact absurd (.inr h) hk
      · exact h

/-- The error of an element, in the order of R98. -/
def elementErr (n : Nat) (e : Entry) : BitVec 8 :=
  if ¬ (1 ≤ e.lo ∧ e.lo ≤ n) ∨ ¬ (1 ≤ e.hi ∧ e.hi ≤ n) then 4#8
  else if e.hi < e.lo then 6#8
  else 0#8

theorem entryErr_encodeEntry (n : Nat) (e : Entry) :
    entryErr n (encodeEntry e) false = elementErr n e := by
  cases e with
  | single ch =>
    have hch : ch.toNat < 2 ^ 8 := ch.isLt
    have h30 : ch.toNat / 2 ^ 30 = 0 := by omega
    have h16 : ch.toNat / 2 ^ 16 % 2 ^ 14 = 0 := by omega
    have h8 : ch.toNat / 2 ^ 8 % 2 ^ 8 = 0 := by omega
    have h0 : ch.toNat % 2 ^ 8 = ch.toNat := by omega
    simp only [entryErr, encodeEntry_single_toNat, h30, h16, h8, h0]
    simp [elementErr, Entry.lo, Entry.hi]
  | range first last =>
    have hf : first.toNat < 2 ^ 8 := first.isLt
    have hl : last.toNat < 2 ^ 8 := last.isLt
    generalize hv : 2 ^ 30 + first.toNat * 2 ^ 8 + last.toNat = v
    have h30 : v / 2 ^ 30 = 1 := by omega
    have h16 : v / 2 ^ 16 % 2 ^ 14 = 0 := by omega
    have h8 : v / 2 ^ 8 % 2 ^ 8 = first.toNat := by omega
    have h0 : v % 2 ^ 8 = last.toNat := by omega
    unfold entryErr
    simp only [encodeEntry_range_toNat, hv, h30, h16, h8, h0]
    rw [if_neg Bool.false_ne_true, if_neg (by simp), if_neg (by simp)]
    rfl

/-- An element with an error raises it and changes nothing else, whether flags are collected or not.
-/
theorem useEntry_of_error {s : State} {e : Entry} (herr : s.err = 0#8)
    (hne : elementErr s.cfg.n e ≠ 0#8) (collect : Bool) :
    s.useEntry collect e = { s with err := elementErr s.cfg.n e } := by
  unfold elementErr at hne ⊢
  unfold State.useEntry
  by_cases hch : (1 ≤ e.lo ∧ e.lo ≤ s.cfg.n) ∧ (1 ≤ e.hi ∧ e.hi ≤ s.cfg.n)
  · have hhas : (s.cfg.hasChannel e.lo && s.cfg.hasChannel e.hi) = true := by
      rwa [Bool.and_eq_true, hasChannel_eq_true, hasChannel_eq_true]
    by_cases hord : e.hi < e.lo
    · simp [hhas, hch, hord, raise_of_ok herr, ErrCode.code]
    · simp [hch, hord] at hne
  · have hhas : (s.cfg.hasChannel e.lo && s.cfg.hasChannel e.hi) = false := by
      rwa [← Bool.not_eq_true, Bool.and_eq_true, hasChannel_eq_true, hasChannel_eq_true]
    rw [not_and_or] at hch
    simp only [hhas, hch, Bool.not_false, if_true, raise_of_ok herr]
    rfl

theorem entryArg_of_error {s : State} {I : Inputs} (herr : s.err = 0#8)
    (hne : entryErr s.cfg.n I.cmdData I.cmdErr ≠ 0#8) (collect : Bool) :
    s.entryArg collect I = { s with err := entryErr s.cfg.n I.cmdData I.cmdErr } := by
  unfold State.entryArg
  cases hd : decodeEntry I.cmdData I.cmdErr with
  | ok e =>
    obtain ⟨hm, hw⟩ := decodeEntry_eq_ok_iff.mp hd
    rw [hm, hw, entryErr_encodeEntry] at hne ⊢
    exact useEntry_of_error herr hne collect
  | error c =>
    obtain ⟨hbad, hd'⟩ | ⟨-, -, hd'⟩ | ⟨-, -, hd'⟩ := decodeEntry_cases I.cmdData I.cmdErr <;>
      rw [hd] at hd'
    · cases hd'
      rw [entryErr_of_malformed hbad]
      exact raise_of_ok herr .malformed
    all_goals cases hd'

/-- Settles O14: all three commands of class LIST take their words by the rule of R98. -/
theorem badEntryRaisesItsError : Obligations.BadEntryRaisesItsError := by
  intro i s hi hctl herr hvalid hne
  have harg : argRule i s.input s =
      { s with err := entryErr s.cfg.n s.input.cmdData s.input.cmdErr } := by
    cases i <;> simp at hi <;> exact entryArg_of_error herr hne _
  have hrec := received_args_of_ok hctl herr i
  rw [harg] at hrec
  cases hlast : s.input.cmdLast with
  | false =>
    rw [exec_args_not_last hctl hvalid hlast, hrec]
    rfl
  | true =>
    rw [exec_args_last_error hctl hvalid hlast (by rw [hrec]) hne, hrec, errorRsp_eq]
    rfl

/-- What a legal element does where no flags are collected. -/
theorem useEntry_union {s : State} {e : Entry} (hlo : 1 ≤ e.lo) (hord : e.lo ≤ e.hi)
    (hhi : e.hi ≤ s.cfg.n) :
    s.useEntry false e = { s with amask := s.amask ||| maskOf (channels e.lo e.hi) } := by
  have hl : s.cfg.hasChannel e.lo = true := hasChannel_eq_true.mpr ⟨hlo, by omega⟩
  have hh : s.cfg.hasChannel e.hi = true := hasChannel_eq_true.mpr ⟨by omega, hhi⟩
  simp [State.useEntry, hl, hh, Nat.not_lt.mpr hord]

/-- What a legal element does to a Close-Query. -/
theorem useEntry_collect {s : State} {e : Entry} (herr : s.err = 0#8) (hlo : 1 ≤ e.lo)
    (hord : e.lo ≤ e.hi) (hhi : e.hi ≤ s.cfg.n) :
    s.useEntry true e =
      if s.qflags.length + (e.hi - e.lo + 1) ≤ s.cfg.qMax then
        { s with
          amask := s.amask ||| maskOf (channels e.lo e.hi)
          qflags := s.qflags ++ (channels e.lo e.hi).map (closed s.relay) }
      else { s with err := 7#8 } := by
  have hl : s.cfg.hasChannel e.lo = true := hasChannel_eq_true.mpr ⟨hlo, by omega⟩
  have hh : s.cfg.hasChannel e.hi = true := hasChannel_eq_true.mpr ⟨by omega, hhi⟩
  by_cases hfit : s.qflags.length + (e.hi - e.lo + 1) ≤ s.cfg.qMax
  · simp [State.useEntry, hl, hh, Nat.not_lt.mpr hord, hfit, Nat.not_lt.mpr hfit, flagsOf]
  · simp [State.useEntry, hl, hh, Nat.not_lt.mpr hord, hfit, Nat.not_le.mp hfit, raise_of_ok herr,
      ErrCode.code]

theorem entryArg_encodeEntry {s : State} {I : Inputs} {e : Entry} (hm : I.cmdErr = false)
    (hw : I.cmdData = encodeEntry e) (collect : Bool) :
    s.entryArg collect I = s.useEntry collect e := by
  rw [State.entryArg, hm, hw, decodeEntry_encodeEntry]

/-- OPEN and CLOSE take a legal entry. -/
theorem received_legal_entry {i : Instr} {s : State} {e : Entry} (hi : i ∈ [Instr.opn, .cls])
    (h : LegalEntryOffered s e) :
    received i s = { s with
      nargs := argCount s.nargs, amask := s.amask ||| maskOf (channels e.lo e.hi) } := by
  obtain ⟨hctl, herr, -, hm, hw, hlo, hord, hhi⟩ := h
  have harg : argRule i s.input s = s.entryArg false s.input := by
    cases i <;> simp at hi <;> rfl
  rw [received_args_of_ok hctl herr, harg, entryArg_encodeEntry hm hw, useEntry_union hlo hord hhi]

/-- CLOSE_Q takes a legal entry. -/
theorem received_query_entry {s : State} {e : Entry} (h : LegalEntryOffered s e) :
    received .clsQ s =
      if s.qflags.length + (e.hi - e.lo + 1) ≤ s.cfg.qMax then
        { s with
          nargs := argCount s.nargs, amask := s.amask ||| maskOf (channels e.lo e.hi)
          qflags := s.qflags ++ (channels e.lo e.hi).map (closed s.relay) }
      else { s with nargs := argCount s.nargs, err := 7#8 } := by
  obtain ⟨hctl, herr, -, hm, hw, hlo, hord, hhi⟩ := h
  have harg : argRule .clsQ s.input s = s.entryArg true s.input := rfl
  rw [received_args_of_ok hctl herr, harg, entryArg_encodeEntry hm hw,
    useEntry_collect herr hlo hord hhi]
  split <;> rfl

/-- Settles O15: the received word, in C_ARGS. -/
theorem entryJoinsTheUnion : Obligations.EntryJoinsTheUnion := by
  intro i s e hi hentry hlast
  obtain ⟨hctl, -, hvalid, -⟩ := id hentry
  rw [exec_args_not_last hctl hvalid hlast, received_legal_entry hi hentry]

/-- Settles O16: the received word, in C_ARGS. -/
theorem queryEntryAppendsItsFlags : Obligations.QueryEntryAppendsItsFlags := by
  intro s e hentry hlast
  obtain ⟨hctl, -, hvalid, -⟩ := id hentry
  rw [exec_args_not_last hctl hvalid hlast, received_query_entry hentry]
  rfl

/-! Numeric and ignored words (R97, R61, R59) -/

/-- SET and SET_MBB take a numeric word. -/
theorem received_number {i : Instr} {s : State} (hi : i ∈ [Instr.set, .setMbb])
    (hctl : s.ctl = .args) (herr : s.err = 0#8) :
    received i s =
      if s.nargs ≠ 0#16 then { s with nargs := argCount s.nargs, err := 5#8 }
      else if s.input.cmdErr = true then { s with nargs := 1#16, err := 3#8 }
      else { s with nargs := 1#16, aval := s.input.cmdData } := by
  have harg : argRule i s.input s = s.numberArg s.input := by
    cases i <;> simp at hi <;> rfl
  rw [received_args_of_ok hctl herr, harg]
  by_cases hn : s.nargs = 0#16
  · cases hm : s.input.cmdErr with
    | true =>
      simp [State.numberArg, hn, decodeNumber, hm, raise_of_ok herr, argCount_zero, ErrCode.code]
    | false => simp [State.numberArg, hn, decodeNumber, hm, argCount_zero]
  · simp [State.numberArg, hn, raise_of_ok herr, ErrCode.code]

/-- Settles O17: the received word, in C_ARGS. -/
theorem numericWordIsTheArgument : Obligations.NumericWordIsTheArgument := by
  intro i s hi hctl herr hvalid hlast
  rw [exec_args_not_last hctl hvalid hlast, received_number hi hctl herr]

/-- Settles O18: the error that the last word raises is the answer. -/
theorem badNumericWordAnswersError : Obligations.BadNumericWordAnswersError := by
  intro i s hi hctl herr hvalid hlast
  have hrec := received_number hi hctl herr
  constructor
  · intro hn
    rw [if_pos hn] at hrec
    rw [exec_args_last_error hctl hvalid hlast (e := 5#8) (by rw [hrec]) (by decide), hrec]
    rfl
  · intro hn hm
    rw [if_neg (not_not.mpr hn), if_pos hm] at hrec
    rw [exec_args_last_error hctl hvalid hlast (e := 3#8) (by rw [hrec]) (by decide), hrec]
    rfl

/-- A command of class NONE takes an argument word: it is counted alone, an error raised or not. -/
theorem received_ignored {i : Instr} {s : State} (hi : i.argClass = .none) (hctl : s.ctl = .args) :
    received i s = { s with nargs := argCount s.nargs } := by
  by_cases herr : s.err = 0#8
  · rw [received_args_of_ok hctl herr]
    cases i with
    | opnAll | stateQ | getQ | ident => rfl
    | opn | cls | clsQ | set | setMbb => cases hi
  · exact received_args_of_err hctl herr i

/-- Settles O19: the received word, in C_ARGS. -/
theorem ignoredWordIsOnlyCounted : Obligations.IgnoredWordIsOnlyCounted := by
  intro i s hi hctl hvalid hlast
  have hcl : i.argClass = .none := by
    cases i <;> simp [Instr.argClass] at hi ⊢
  rw [exec_args_not_last hctl hvalid hlast, received_ignored hcl hctl]

/-! Commands at their last word (R103 to R111) -/

/-- OPEN and CLOSE act on the union of their entries. -/
theorem exec_last_entry {i : Instr} {s : State} {e : Entry} (hi : i ∈ [Instr.opn, .cls])
    (h : LegalEntryOffered s e) (hlast : s.input.cmdLast = true) :
    exec i s = action i { s with
      nargs := argCount s.nargs, amask := s.amask ||| maskOf (channels e.lo e.hi) } := by
  obtain ⟨hctl, herr, hvalid, -⟩ := id h
  have hrec := received_legal_entry hi h
  rw [exec_args_last_action hctl hvalid hlast (by rw [hrec]; exact herr)
    (by rw [hrec]; exact argCount_ne_zero _), hrec]

/-- Settles O20: OPEN's action is a start. -/
theorem openStartsAtItsLastEntry : Obligations.OpenStartsAtItsLastEntry := by
  intro s e hentry hlast hseq
  rw [exec_last_entry (by simp) hentry hlast]
  exact startCmd_idle (by exact hseq) _

/-- Settles O21: CLOSE's action is a start. -/
theorem closeStartsAtItsLastEntry : Obligations.CloseStartsAtItsLastEntry := by
  intro s e hentry hlast hseq
  rw [exec_last_entry (by simp) hentry hlast]
  exact startCmd_idle (by exact hseq) _

theorem flagsRsp_eq {fs : List Bool} (h : fs.length < 2 ^ 16) :
    flagsRsp fs = BitVec.ofNat 32 (0x10000000 + fs.length) ::
      fs.map (fun f => if f then 1#32 else 0#32) := by
  rw [flagsRsp, hdr_eq_ofNat _ _ h]
  rfl

/-- Settles O22: the flags collected are answered, or the error the last entry raised. -/
theorem closeQueryAnswersAtItsLastEntry : Obligations.CloseQueryAnswersAtItsLastEntry := by
  intro s e hentry hlast hq fs
  obtain ⟨hctl, herr, hvalid, -, -, -, hord, -⟩ := id hentry
  have hrec := received_query_entry hentry
  by_cases hfit : s.qflags.length + (e.hi - e.lo + 1) ≤ s.cfg.qMax
  · have hlen : fs.length < 2 ^ 16 := by
      simp only [fs, List.length_append, List.length_map, length_channels]
      omega
    rw [if_pos hfit] at hrec ⊢
    rw [exec_args_last_action hctl hvalid hlast (by rw [hrec]; exact herr)
      (by rw [hrec]; exact argCount_ne_zero _), hrec]
    simp only [action, State.respond]
    rw [show s.qflags ++ (channels e.lo e.hi).map (closed s.relay) = fs from rfl, flagsRsp_eq hlen]
  · rw [if_neg hfit] at hrec ⊢
    rw [exec_args_last_error hctl hvalid hlast (e := 7#8) (by rw [hrec]) (by decide), hrec]
    rfl

/-- A command of class NONE acts at its last word. -/
theorem exec_last_plain {i : Instr} {s : State} (hi : i.argClass = .none) (h : LastPlainWord s) :
    exec i s = action i (plainReceived i s) := by
  obtain ⟨hvalid, hlast, ⟨hctl, hquiet⟩ | ⟨hctl, herr⟩⟩ := h
  · have hrec : received i s = plainReceived i s := by
      rw [received_idle hctl, plainReceived, if_pos hctl]
      rfl
    have hfinal : (received i s).finalErr i.argClass = 0#8 := by
      rw [hi, finalErr_none, received_idle hctl]
      rfl
    rw [exec_last_action (accepts_of_idle hctl hquiet hvalid) hlast hfinal, hrec]
  · have hrec : received i s = plainReceived i s := by
      rw [received_ignored hi hctl, plainReceived, if_neg (by simp [hctl])]
    have hfinal : (received i s).finalErr i.argClass = 0#8 := by
      rw [hi, finalErr_none, received_ignored hi hctl]
      exact herr
    rw [exec_last_action (accepts_of_args hctl hvalid) hlast hfinal, hrec]

/-- Receiving a word of a NONE command writes the dispatcher's registers alone. -/
theorem plainReceived_frame (i : Instr) (s : State) : (plainReceived i s).relay = s.relay ∧
    (plainReceived i s).seq = s.seq ∧ (plainReceived i s).cfg = s.cfg := by
  unfold plainReceived
  split <;> exact ⟨rfl, rfl, rfl⟩

/-- Settles O23: OPEN_ALL's action is a start that opens every channel a relay state can have
closed. -/
theorem openAllOpensEveryChannel : Obligations.OpenAllOpensEveryChannel := by
  intro s hword hseq hcut
  obtain ⟨hrelay, hseq', hcfg⟩ := plainReceived_frame .opnAll s
  rw [exec_last_plain rfl hword]
  refine (startCmd_idle (hseq'.trans hseq) _).trans ?_
  have hopen : s.relay &&& ~~~s.cfg.valid = 0#32 := by
    rw [← hcut]
    simp [Config.cut, BitVec.and_assoc]
  simp only [SeqSpec.first, SeqSpec.second, cut_valid, State.phaseWrite, State.holdSecond, hrelay,
    hcfg, hopen]

/-! The text of STATE_Q (R107) -/

/-- The decimal of a channel, character by character. -/
theorem map_byteWord_dec {c : Nat} (hc : c ≤ 32) :
    (dec c).map byteWord = (Nat.toDigits 10 c).map (fun ch => BitVec.ofNat 32 ch.toNat) := by
  interval_cases c <;> rfl

theorem map_byteWord_joinDec {cs : List Nat} (h : ∀ c ∈ cs, c ≤ 32) :
    (joinDec cs).map byteWord =
      (List.intercalate [','] (cs.map (Nat.toDigits 10))).map
        (fun ch => BitVec.ofNat 32 ch.toNat) := by
  induction cs with
  | nil => rfl
  | cons c cs ih =>
    have hc := map_byteWord_dec (h c (List.mem_cons_self ..))
    cases cs with
    | nil => simpa [joinDec, List.intercalate] using hc
    | cons d ds =>
      have ih := ih fun x hx => h x (List.mem_cons_of_mem _ hx)
      simp only [List.map_cons, List.intercalate_cons_cons] at ih ⊢
      rw [joinDec, List.map_append, List.map_cons, hc, ih]
      · simp [byteWord]
      · simp

theorem closedChannels_eq (c : Config) (r : Mask) :
    closedChannels c r = ((List.range c.n).filter (fun k => r.getLsbD k)).map (· + 1) := by
  have hch : channels 1 c.n = (List.range c.n).map (· + 1) := by
    simp [channels, Nat.add_comm]
  rw [closedChannels, hch, List.filter_map]
  rfl

/-- Settles O24: the bytes of `fmt` are the codes of the text's characters. -/
theorem stateQueryAnswersItsString : Obligations.StateQueryAnswersItsString := by
  intro s hword hn closedOnes text
  obtain ⟨hrelay, -, hcfg⟩ := plainReceived_frame .stateQ s
  have hones : closedChannels s.cfg s.relay = closedOnes := closedChannels_eq _ _
  have hle : ∀ c ∈ closedOnes, c ≤ 32 := by
    intro c hc
    rw [← hones] at hc
    have := mem_channels.mp (List.mem_filter.mp hc).1
    omega
  have hfmt : (fmt s.cfg s.relay).map byteWord = text.map (fun ch => BitVec.ofNat 32 ch.toNat) := by
    simp only [fmt, text, hones, List.map_append, List.map_cons, List.cons_append,
      map_byteWord_joinDec hle]
    rfl
  have hlen : (fmt s.cfg s.relay).length = text.length := by
    simpa using congrArg List.length hfmt
  have hshort : text.length < 2 ^ 16 := by
    have hdig : ∀ l : List Nat, (l.map digits).sum ≤ 2 * l.length := by
      intro l
      induction l with
      | nil => simp
      | cons c l ih =>
        have : digits c ≤ 2 := by unfold digits; split <;> omega
        simp only [List.map_cons, List.sum_cons, List.length_cons]
        omega
    have h1 := length_closedChannels_le s.cfg s.relay
    have h2 := hdig (closedChannels s.cfg s.relay)
    rw [← hlen, length_fmt]
    omega
  rw [exec_last_plain rfl hword]
  simp only [action, State.respond, strRsp, hrelay, hcfg, hfmt, hlen, hdr_eq_ofNat _ _ hshort]
  rfl

/-- Settles O25: INT with the relay mask, and the cut mask has no bit of N or above. -/
theorem getQueryAnswersTheMask : Obligations.GetQueryAnswersTheMask := by
  intro s hword
  obtain ⟨hrelay, -, -⟩ := plainReceived_frame .getQ s
  constructor
  · rw [exec_last_plain rfl hword]
    simp only [action, State.respond, intRsp, hrelay]
    rfl
  · exact cut_eq_self_iff.mp

/-- Settles O26: IDENT with the parameter. -/
theorem identAnswersTheIdentity : Obligations.IdentAnswersTheIdentity := by
  intro s hword hlen
  obtain ⟨-, -, hcfg⟩ := plainReceived_frame .ident s
  have hshort : s.cfg.identBytes.length < 2 ^ 16 := by omega
  have hbyte : byteWord = fun b => BitVec.ofNat 32 b.toNat := by
    funext b
    exact BitVec.eq_of_toNat_eq (by simp [byteWord])
  rw [exec_last_plain rfl hword]
  simp only [action, State.respond, identRsp, hcfg, hdr_eq_ofNat _ _ hshort, hbyte]
  rfl

/-- SET and SET_MBB act on their numeric word. -/
theorem exec_last_number {i : Instr} {s : State} {v : Word} (hi : i ∈ [Instr.set, .setMbb])
    (h : NumberOffered s v) : exec i s = action i { s with nargs := 1#16, aval := v } := by
  obtain ⟨hctl, herr, hn, hvalid, hlast, hm, hv⟩ := h
  have hrec := received_number hi hctl herr
  rw [if_neg (not_not.mpr hn), if_neg (by simp [hm]), hv] at hrec
  rw [exec_args_last_action hctl hvalid hlast (by rw [hrec]; exact herr)
    (by rw [hrec]; simp), hrec]

/-- Settles O27: SET's action is a start. -/
theorem setOpensFirst : Obligations.SetOpensFirst := by
  intro s v hnum hseq
  rw [exec_last_number (by simp) hnum]
  exact startCmd_idle (by exact hseq) _

/-- Settles O28: SET_MBB's action is a start. -/
theorem setMbbClosesFirst : Obligations.SetMbbClosesFirst := by
  intro s v hnum hseq
  rw [exec_last_number (by simp) hnum]
  exact startCmd_idle (by exact hseq) _

/-- Settles O29: each of the five actions is a start, and a start while busy faults. -/
theorem startWhileBusyFaults : Obligations.StartWhileBusyFaults := by
  intro s e v hbusy
  refine ⟨fun hentry hlast => ⟨?_, ?_⟩, fun hword => ?_, fun hnum => ⟨?_, ?_⟩⟩
  · rw [exec_last_entry (by simp) hentry hlast]
    exact startCmd_busy (by exact hbusy) _
  · rw [exec_last_entry (by simp) hentry hlast]
    exact startCmd_busy (by exact hbusy) _
  · rw [exec_last_plain rfl hword]
    exact startCmd_busy ((plainReceived_frame .opnAll s).2.1.trans hbusy) _
  · rw [exec_last_number (by simp) hnum]
    exact startCmd_busy (by exact hbusy) _
  · rw [exec_last_number (by simp) hnum]
    exact startCmd_busy (by exact hbusy) _

/-! The frame of a command word -/

/-- The registers of the sequencer and the relays (R20, R24 to R26). -/
def State.bank (s : State) : Mask × Seq × BitVec 16 × Bool × Kind × Mask :=
  (s.relay, s.seq, s.dly, s.p2Valid, s.p2Kind, s.p2Mask)

/-- The registers no command word writes, beside the debouncer and the event registers: the
parameters and the environment. -/
def State.surroundings (s : State) : Config × List Inputs × Nat :=
  (s.cfg, s.inputs, s.drawn)

theorem received_surroundings (i : Instr) (s : State) :
    (received i s).surroundings = s.surroundings := by
  rw [received_frame]
  rfl

theorem received_event (i : Instr) (s : State) : (received i s).event = s.event := by
  rw [received_frame]
  rfl

theorem received_bank (i : Instr) (s : State) : (received i s).bank = s.bank := by
  rw [received_frame]
  rfl

theorem rbStart_keeps_surroundings {s t : State} {spec : SeqSpec} (h : s.rbStart spec = .next t) :
    t.surroundings = s.surroundings := by
  obtain ⟨-, rfl⟩ := rbStart_next h
  simp [State.surroundings]

/-- A sequence start leaves the sequencer busy (R74). -/
theorem rbStart_seq {s t : State} {spec : SeqSpec} (h : s.rbStart spec = .next t) :
    t.seq = .busy := by
  obtain ⟨-, rfl⟩ := rbStart_next h
  simp

theorem exec_keeps_event_and_surroundings {i : Instr} {s t : State} (h : exec i s = .next t) :
    t.event = s.event ∧ t.surroundings = s.surroundings := by
  have hr : (received i s).event = s.event ∧ (received i s).surroundings = s.surroundings :=
    ⟨received_event i s, received_surroundings i s⟩
  obtain ⟨-, he⟩ | ⟨-, -, he⟩ | ⟨-, -, -, he⟩ | ⟨-, -, -, he⟩ := exec_cases i s <;> rw [he] at h
  case inl =>
    cases h
    exact ⟨rfl, rfl⟩
  case inr.inr.inr =>
    obtain ⟨-, l, rfl⟩ | ⟨-, -, spec, u, hu, rfl⟩ := action_next h
    · exact hr
    · exact ⟨(rbStart_keeps_event hu).trans hr.1, (rbStart_keeps_surroundings hu).trans hr.2⟩
  all_goals
    cases h
    exact hr

/-- A command word that starts no sequence leaves the relay bank. -/
theorem exec_keeps_bank {i : Instr} {s t : State} (h : exec i s = .next t)
    (hno : i.mutating = false ∨ t.seq = s.seq) : t.bank = s.bank := by
  have hr := received_bank i s
  obtain ⟨-, he⟩ | ⟨-, -, he⟩ | ⟨-, -, -, he⟩ | ⟨-, -, -, he⟩ := exec_cases i s <;> rw [he] at h
  case inl =>
    cases h
    rfl
  case inr.inr.inr =>
    obtain ⟨-, l, rfl⟩ | ⟨hmut, hidle, spec, u, hu, rfl⟩ := action_next h
    · exact hr
    · obtain hno | hno := hno
      · rw [hmut] at hno
        cases hno
      · have hidle : s.seq = .idle := (congrArg (·.2.1) hr).symm.trans hidle
        have hbusy : u.seq = .busy := rbStart_seq hu
        have hbusy : s.seq = .busy := hno.symm.trans hbusy
        rw [hidle] at hbusy
        cases hbusy
  all_goals
    cases h
    exact hr

/-- Settles O30: the frame, field by field. -/
theorem commandWordFrame : Obligations.CommandWordFrame := by
  intro i s t h
  obtain ⟨hnow, hlast, hacc⟩ := State.debouncer_eq_iff.mp (exec_keeps_debouncer h)
  obtain ⟨hevent, hsurr⟩ := exec_keeps_event_and_surroundings h
  obtain ⟨hmev, hstb⟩ := Prod.mk.inj hevent
  obtain ⟨hcfg, hinputs, hdrawn⟩ : t.cfg = s.cfg ∧ t.inputs = s.inputs ∧ t.drawn = s.drawn := by
    simpa [State.surroundings] using hsurr
  refine ⟨⟨hnow, hlast, hacc, hmev, hstb, hcfg, hinputs, hdrawn⟩, fun hno => ?_⟩
  simpa [State.bank] using exec_keeps_bank h hno

end Sys2Proof.Machine

/-! The step (R119, R124): its rows, one by one, and the ends of a command word. -/

namespace Sys2Proof.Machine

/-! What the end of a step leaves -/

/-- The state without the debouncer, `mev_stb` and the environment: what the rows of R119 work on,
and what the end of a step leaves alone. -/
def State.block (s : State) : State :=
  { s with now := 0#32, last := 0#32, acc := 0#2, mevStb := false, inputs := [], drawn := 0 }

/-- What is read off `block` alone is the same in two states with the same block. -/
theorem eq_of_block {α : Type} (f : State → α) {t u : State} {x : α} (h : t.block = u.block)
    (hx : f u = x := by exact rfl) (hf : ∀ s : State, f s.block = f s := by exact fun _ => rfl) :
    f t = x := by
  rw [← hf t, h, hf u, hx]

theorem endStep_block (s : State) (accR : BitVec 2) (t : State) :
    (s.endStep accR t).block = t.block := by
  unfold State.endStep State.nextInput State.tickPart State.debSample
  (repeat' split) <;> rfl

theorem endStep_inputs (s : State) (accR : BitVec 2) (t : State) :
    (s.endStep accR t).inputs = t.inputs.tail := by
  simp [State.endStep]

theorem endStep_mevStb (s : State) (accR : BitVec 2) (t : State) :
    (s.endStep accR t).mevStb = t.mevStb := by
  simp [State.endStep]

/-! The rows of R119 -/

/-- The state at the start of a step, with `mev_stb` down (R124). -/
def State.lowered (s : State) : State :=
  { s with mevStb := false }

theorem lowered_block (s : State) : s.lowered.block = s.block := rfl

/-- The block can take a word from the command port: a header in C_IDLE, where no read fires, or an
argument word in C_ARGS (R121). -/
def State.Listening (s : State) : Prop :=
  s.ctl = .idle ∧ s.quiet = false ∨ s.ctl = .args

/-- The state after the sequencer and the control multiplexer have acted, row by row (R75, R119). -/
inductive Row (s : State) : State → Prop where
  /-- A fired event set starts its sequence. -/
  | manual {u : State} (hctl : s.ctl = .idle) (hquiet : s.quiet = true)
      (hman : s.lowered.manual s.acc = .next u) : Row s u
  /-- A word is taken from the command port. -/
  | word {u : State} (hlisten : s.Listening) (hvalid : s.input.cmdValid = true)
      (hword : s.lowered.commandWord = .next u) : Row s u
  /-- No word is offered. -/
  | noWord (hlisten : s.Listening) (hvalid : s.input.cmdValid = false) : Row s s.lowered
  /-- A phase runs and no tick comes. -/
  | hold (hseq : s.seq = .busy) (htick : s.input.tick = false) : Row s s.lowered
  /-- A tick of a phase that is not its last. -/
  | count (hseq : s.seq = .busy) (htick : s.input.tick = true) (hdly : 1 < s.dly.toNat) :
      Row s { s.lowered with dly := s.dly - 1#16 }
  /-- The last tick of a first phase. -/
  | second (hseq : s.seq = .busy) (htick : s.input.tick = true) (hdly : s.dly = 1#16)
      (hp2 : s.p2Valid = true) :
      Row s { s.lowered.phaseWrite s.p2Kind s.p2Mask with p2Valid := false }
  /-- The last tick of a command's last phase. -/
  | ack (hseq : s.seq = .busy) (hctl : s.ctl = .seq) (htick : s.input.tick = true)
      (hdly : s.dly = 1#16) (hp2 : s.p2Valid = false) :
      Row s ({ s.lowered with seq := .idle, dly := 0#16 }.respond ackRsp)
  /-- The last tick of a manual action's last phase. -/
  | done (hseq : s.seq = .busy) (hctl : s.ctl = .man) (htick : s.input.tick = true)
      (hdly : s.dly = 1#16) (hp2 : s.p2Valid = false) :
      Row s { s.lowered with seq := .idle, dly := 0#16, ctl := .idle }
  /-- A response word is taken. -/
  | take (hctl : s.ctl = .rsp) (hready : s.input.rspReady = true) : Row s s.lowered.takeWord
  /-- A response word is offered and not taken. -/
  | offer (hctl : s.ctl = .rsp) (hready : s.input.rspReady = false) : Row s s.lowered

theorem quiet_of_no_event {s : State} (hctl : s.ctl = .idle)
    (hev : (if s.fires then s.acc else 0#2) = 0#2) : s.quiet = false := by
  cases hq : s.quiet with
  | false => rfl
  | true =>
    have hf : s.fires = true := by simp [State.fires, hctl, hq]
    rw [if_pos hf] at hev
    exact absurd hev (idle_and_acc_ne_zero_of_fires hf).2

/-- The row of a step in which no phase runs. -/
theorem row_of_control_idle {s u : State} (hseq : s.seq = .idle) (hagree : s.PathsAgree)
    (h : s.lowered.control (if s.fires then s.acc else 0#2) false = .next u) : Row s u := by
  have hnot : ¬ (s.ctl = .seq ∨ s.ctl = .man) := fun hc => by
    rw [hagree.mpr hc] at hseq
    cases hseq
  obtain ⟨hctl, hev, hm⟩ | ⟨hctl, hev, hv, hw⟩ | ⟨hctl, hv, hw⟩ | ⟨hctl, hv, rfl⟩ | ⟨hctl, -⟩ |
    ⟨hctl, -⟩ | ⟨hctl, -⟩ | ⟨hctl, hr, rfl⟩ | ⟨hctl, hr, rfl⟩ := control_next h
  · have hf : s.fires = true := by
      by_contra hf
      rw [if_neg hf] at hev
      exact hev rfl
    rw [if_pos hf] at hm
    have hctl : s.ctl = .idle := hctl
    exact .manual hctl (by simpa [State.fires, hctl] using hf) hm
  · exact .word (.inl ⟨hctl, quiet_of_no_event hctl hev⟩) hv hw
  · exact .word (.inr hctl) hv hw
  · refine .noWord ?_ hv
    obtain ⟨hctl, hev⟩ | hctl := hctl
    · exact .inl ⟨hctl, quiet_of_no_event hctl hev⟩
    · exact .inr hctl
  · exact absurd (.inl hctl) hnot
  · exact absurd (.inr hctl) hnot
  · exact absurd hctl hnot
  · exact .take hctl hr
  · exact .offer hctl hr

/-- While a phase runs, the control multiplexer waits for its end (R119). -/
theorem control_busy {s u : State} {ev : BitVec 2} {done : Bool}
    (hctl : s.ctl = .seq ∨ s.ctl = .man)
    (h : s.control ev done = .next u) :
    (done = false ∧ u = s) ∨ (done = true ∧ s.ctl = .seq ∧ u = s.respond ackRsp) ∨
      (done = true ∧ s.ctl = .man ∧ u = { s with ctl := .idle }) := by
  unfold State.control at h
  obtain hctl | hctl := hctl <;> rw [hctl] at h <;> cases done <;> cases h <;> simp [hctl]

/-- The row of a step in which a phase runs. -/
theorem row_of_control_busy {s u : State} {ev : BitVec 2} (hseq : s.seq = .busy)
    (hinv : s.Invariants) (h : (advanced s).control ev (seqDone s) = .next u) : Row s u := by
  obtain ⟨hagree, hdelay, -, -⟩ := hinv
  have hctl : s.ctl = .seq ∨ s.ctl = .man := hagree.mp hseq
  have hdly : ¬ 1 < s.dly.toNat → s.dly = 1#16 := fun hn => by
    have := (hdelay hseq).1
    exact BitVec.eq_of_toNat_eq (by simp; omega)
  have hadv : (advanced s).ctl = s.ctl := by rw [advanced_frame]
  have hrow := control_busy (hadv ▸ hctl) h
  rw [hadv] at hrow
  unfold advanced seqDone at hrow
  obtain ⟨hi, -⟩ | ⟨-, htick, hr⟩ | ⟨-, htick, hd, hr⟩ | ⟨-, htick, hd, hp, hr⟩ |
    ⟨-, htick, hd, hp, hr⟩ := rbAdvance_cases s.input.tick s.lowered
  · rw [show s.lowered.seq = s.seq from rfl, hseq] at hi
    cases hi
  all_goals
    rw [show ({ s with mevStb := false } : State) = s.lowered from rfl, hr] at hrow
    obtain ⟨hdone, rfl⟩ | ⟨hdone, hc, rfl⟩ | ⟨hdone, hc, rfl⟩ := hrow <;> try cases hdone
  · exact .hold hseq htick
  · exact .count hseq htick hd
  · exact .second hseq htick (hdly hd) hp
  · exact .ack hseq hc htick (hdly hd) hp
  · exact .done hseq hc htick (hdly hd) hp

theorem runStep_row {s t : State} (hinv : s.Invariants) (h : s.runStep = .next t) :
    ∃ u a, Row s u ∧ t = s.endStep a u := by
  obtain ⟨u, hu, rfl⟩ := runStep_next h
  refine ⟨u, _, ?_, rfl⟩
  cases hseq : s.seq with
  | idle =>
    obtain ⟨hadv, hdone⟩ := advanced_idle hseq
    rw [hadv, hdone, debRead_eq, apply_ite Prod.fst] at hu
    exact row_of_control_idle hseq hinv.1 hu
  | busy => exact row_of_control_busy hseq hinv hu

/-! Bounds that do not depend on `ctl` -/

/-- A legal configuration and registers within their widths and bounds. -/
def State.Bounded (s : State) : Prop :=
  s.cfg.Legal ∧ s.FlagsInRange ∧ s.Representable

theorem State.Sound.bounded {s : State} (h : s.Sound) : s.Bounded := by
  obtain ⟨hl, ⟨-, -, -, hf⟩, hr, -⟩ := h
  exact ⟨hl, hf, hr⟩

/-- A step outside a reset is a row and the end of the step. -/
theorem step_row {s t : State} (h : step s = .next t) (hrst : s.input.rst = false) :
    s.Bounded ∧ s.Invariants ∧ ∃ u a, Row s u ∧ t = s.endStep a u := by
  obtain ⟨hl, ⟨hreset, -⟩ | ⟨-, hinv, hrep, hrun⟩⟩ := step_next h
  · rw [hrst] at hreset
    cases hreset
  · exact ⟨⟨hl, hinv.2.2.2, hrep⟩, hinv, runStep_row hinv hrun⟩

/-! Receiving a word keeps the bounds -/

theorem elementErr_eq_zero_iff {n : Nat} {e : Entry} :
    elementErr n e = 0#8 ↔ 1 ≤ e.lo ∧ e.lo ≤ e.hi ∧ e.hi ≤ n := by
  unfold elementErr
  constructor
  · intro h
    split at h
    · cases h
    · split at h
      · cases h
      · omega
  · intro h
    rw [if_neg (by omega), if_neg (by omega)]

/-- An entry word raises its error, or it is the word of a legal element (R98). -/
theorem entryArg_cases {s : State} {I : Inputs} (herr : s.err = 0#8) (collect : Bool) :
    (entryErr s.cfg.n I.cmdData I.cmdErr ≠ 0#8 ∧
      s.entryArg collect I = { s with err := entryErr s.cfg.n I.cmdData I.cmdErr }) ∨
    ∃ e, I.cmdErr = false ∧ I.cmdData = encodeEntry e ∧ (1 ≤ e.lo ∧ e.lo ≤ e.hi ∧ e.hi ≤ s.cfg.n) ∧
      s.entryArg collect I = s.useEntry collect e := by
  by_cases hz : entryErr s.cfg.n I.cmdData I.cmdErr = 0#8
  · right
    obtain ⟨hbad, -⟩ | ⟨hm, hw, -⟩ | ⟨hm, hw, -⟩ := decodeEntry_cases I.cmdData I.cmdErr
    · rw [entryErr_of_malformed hbad] at hz
      cases hz
    all_goals
      refine ⟨_, hm, hw, ?_, entryArg_encodeEntry hm hw collect⟩
      rw [hm, hw, entryErr_encodeEntry] at hz
      exact elementErr_eq_zero_iff.mp hz
  · exact .inl ⟨hz, entryArg_of_error herr hz collect⟩

theorem entryErr_le (n : Nat) (w : Word) (marked : Bool) : (entryErr n w marked).toNat ≤ 7 := by
  unfold entryErr
  dsimp only
  (repeat' split) <;> decide

/-- What receiving a word keeps: the bounds, and an error code of R66. -/
def State.KeepsBounds (s r : State) : Prop :=
  (s.Bounded → r.Bounded) ∧ (s.ErrKnown → r.ErrKnown)

theorem entryArg_keepsBounds {s : State} (herr : s.err = 0#8) (collect : Bool) (I : Inputs) :
    s.KeepsBounds (s.entryArg collect I) := by
  obtain ⟨-, h⟩ | ⟨e, -, -, ⟨hlo, hord, hhi⟩, h⟩ := entryArg_cases (I := I) herr collect <;> rw [h]
  · exact ⟨id, fun _ => entryErr_le ..⟩
  · have hcut := cut_maskOf_channels hlo hhi
    cases collect with
    | false =>
      rw [useEntry_union hlo hord hhi]
      refine ⟨fun ⟨hl, hf, hr, hp, ha, hb⟩ => ⟨hl, hf, hr, hp, cut_or_self ha hcut, hb⟩, id⟩
    | true =>
      rw [useEntry_collect herr hlo hord hhi]
      split
      · rename_i hfit
        refine ⟨fun ⟨hl, hf, hr, hp, ha, hb⟩ => ⟨hl, ?_, hr, hp, cut_or_self ha hcut, hb⟩, id⟩
        simp only [State.FlagsInRange, List.length_append, List.length_map, length_channels]
        omega
      · exact ⟨id, fun _ => by simp [State.ErrKnown]⟩

theorem numberArg_keepsBounds {s : State} (herr : s.err = 0#8) (I : Inputs) :
    s.KeepsBounds (s.numberArg I) := by
  unfold State.numberArg
  split
  · rw [raise_of_ok herr]
    exact ⟨id, fun _ => by simp [State.ErrKnown, ErrCode.code]⟩
  · cases hm : I.cmdErr with
    | true =>
      simp only [decodeNumber, if_true, raise_of_ok herr]
      exact ⟨id, fun _ => by simp [State.ErrKnown, ErrCode.code]⟩
    | false => exact ⟨id, id⟩

theorem argRule_keepsBounds {s : State} (herr : s.err = 0#8) (i : Instr) (I : Inputs) :
    s.KeepsBounds (argRule i I s) := by
  cases i with
  | opn | cls | clsQ => exact entryArg_keepsBounds herr _ I
  | set | setMbb => exact numberArg_keepsBounds herr I
  | opnAll | stateQ | getQ | ident => exact ⟨id, id⟩

theorem beginCommand_keepsBounds (op : BitVec 4) {e : BitVec 8} (he : e.toNat ≤ 7) (s : State) :
    s.KeepsBounds (s.beginCommand op e) :=
  ⟨fun ⟨hl, _, hr, hp, _, hb⟩ => ⟨hl, Nat.zero_le _, hr, hp, cut_zero _, hb⟩, fun _ => he⟩

theorem countArg_keepsBounds (s : State) : s.KeepsBounds s.countArg := by
  rw [countArg_eq]
  exact ⟨id, id⟩

theorem received_keepsBounds (i : Instr) (s : State) : s.KeepsBounds (received i s) := by
  unfold received
  split
  · exact beginCommand_keepsBounds _ (by decide) s
  · unfold State.argWord
    split
    · rename_i herr
      obtain ⟨hb, he⟩ := argRule_keepsBounds herr i s.input
      obtain ⟨hb', he'⟩ := countArg_keepsBounds (argRule i s.input s)
      exact ⟨hb' ∘ hb, he' ∘ he⟩
    · exact countArg_keepsBounds s

/-! Responses (R64 to R66, R113) -/

theorem hdr_fields (kind : BitVec 4) (code : BitVec 8) {len : Nat} (h : len < 2 ^ 16) :
    ((hdr kind code len).extractLsb' 0 16).toNat = len ∧
      (hdr kind code len).extractLsb' 24 4 = 0#4 ∧
      (hdr kind code len).extractLsb' 28 4 = kind ∧
      (hdr kind code len).extractLsb' 16 8 = code := by
  have hk : kind.toNat < 2 ^ 4 := kind.isLt
  have hc : code.toNat < 2 ^ 8 := code.isLt
  simp only [← BitVec.toNat_inj, BitVec.extractLsb'_toNat, hdr_toNat kind code h,
    Nat.shiftRight_eq_div_pow, BitVec.toNat_ofNat]
  omega

theorem isResponse_errorRsp {e : BitVec 8} (h1 : e ≠ 0#8) (h7 : e.toNat ≤ 7) :
    isResponse (errorRsp e) := by
  obtain ⟨hlen, hrsv, hkind, hcode⟩ := hdr_fields errorKind e (len := 0) (by decide)
  have hpos : e.toNat ≠ 0 := fun hz => h1 (BitVec.eq_of_toNat_eq hz)
  refine ⟨hlen, hrsv, .inl ⟨hkind, rfl, ?_⟩⟩
  rw [hcode]
  omega

/-- A response of a kind other than ERROR, by the payload that its kind asks for. -/
theorem isResponse_of_kind {kind : BitVec 4} {payload : List Word} (hk : kind.toNat ≤ 4)
    (hlen : payload.length < 2 ^ 16) (hack : kind = ackKind → payload = [])
    (hflags : kind = flagsKind → ∀ w ∈ payload, w = 0#32 ∨ w = 1#32)
    (hint : kind = intKind → payload.length = 1)
    (htext : kind = strKind ∨ kind = identKind → ∀ w ∈ payload, w.toNat < 256) :
    isResponse (hdr kind 0#8 payload.length :: payload) := by
  obtain ⟨hl, hrsv, hkind, hcode⟩ := hdr_fields kind 0#8 hlen
  refine ⟨hl, hrsv, .inr ?_⟩
  rw [hkind]
  exact ⟨hk, hcode, hack, hflags, hint, htext⟩

theorem isResponse_ackRsp : isResponse ackRsp :=
  isResponse_of_kind (kind := ackKind) (payload := []) (by decide) (by decide) (fun _ => rfl)
    (fun h => absurd h (by decide)) (fun h => absurd h (by decide)) (fun h => absurd h (by decide))

theorem isResponse_flagsRsp {fs : List Bool} (h : fs.length < 2 ^ 16) :
    isResponse (flagsRsp fs) := by
  have hr := isResponse_of_kind (kind := flagsKind) (payload := fs.map flagWord) (by decide)
    (by simpa using h) (fun h => absurd h (by decide))
    (fun _ w hw => by
      obtain ⟨f, -, rfl⟩ := List.mem_map.mp hw
      cases f
      · exact .inl rfl
      · exact .inr rfl)
    (fun h => absurd h (by decide)) (fun h => absurd h (by decide))
  rwa [List.length_map] at hr

theorem isResponse_intRsp (r : Mask) : isResponse (intRsp r) :=
  isResponse_of_kind (kind := intKind) (payload := [r]) (by decide) (by decide : 1 < 2 ^ 16)
    (fun h => absurd h (by decide)) (fun h => absurd h (by decide)) (fun _ => rfl)
    (fun h => absurd h (by decide))

/-- A response of bytes, one in each word. -/
theorem isResponse_bytes {kind : BitVec 4} {bs : List Byte} (hk : kind = strKind ∨ kind = identKind)
    (h : bs.length < 2 ^ 16) : isResponse (hdr kind 0#8 bs.length :: bs.map byteWord) := by
  have hr := isResponse_of_kind (kind := kind) (payload := bs.map byteWord)
    (by obtain rfl | rfl := hk <;> decide) (by simpa using h)
    (fun h => absurd h (by obtain rfl | rfl := hk <;> decide))
    (fun h => absurd h (by obtain rfl | rfl := hk <;> decide))
    (fun h => absurd h (by obtain rfl | rfl := hk <;> decide))
    (fun _ w hw => by
      obtain ⟨b, -, rfl⟩ := List.mem_map.mp hw
      have hb : b.toNat < 256 := b.isLt
      simp only [byteWord, BitVec.toNat_setWidth]
      omega)
  rwa [List.length_map] at hr

theorem strMax_lt {c : Config} (hn : c.n ≤ 32) : c.strMax < 2 ^ 16 := by
  have hd : ∀ ch : Nat, digits ch ≤ 2 := fun ch => by
    unfold digits
    split <;> decide
  have hsum := List.sum_le_card_nsmul ((channels 1 c.n).map digits) 2 (by simp [hd])
  simp only [List.length_map, length_channels, smul_eq_mul] at hsum
  unfold Config.strMax
  omega

/-- A list of words the block may offer: a response (where the error in it is one of R66) of at most
RBUF_MAX words. -/
def Offerable (s : State) (l : List Word) : Prop :=
  1 ≤ l.length ∧ l.length ≤ s.cfg.rbufMax ∧ (s.ErrKnown → isResponse l)

/-- The end of a command in a response or in a sequence start (R100). -/
inductive Ending (r : State) : State → Prop where
  | answer {l : List Word} (hl : Offerable r l) : Ending r (r.respond l)
  | start {spec : SeqSpec} {u : State} (hu : r.rbStart spec = .next u) :
      Ending r { u with ctl := .seq }

theorem action_ending {i : Instr} {r t : State} (hr : r.Bounded) (h : action i r = .next t) :
    Ending r t := by
  obtain ⟨⟨⟨-, hn⟩, -, -, -, ⟨-, hq⟩, hid⟩, hflags, -⟩ := hr
  cases i with
  | opn | cls | opnAll | set | setMbb =>
    obtain ⟨-, u, hu, rfl⟩ := startCmd_next h
    exact .start hu
  | clsQ =>
    cases h
    have hlen : r.qflags.length ≤ r.cfg.qMax := hflags
    exact .answer ⟨Nat.le_add_left 1 _, length_flagsRsp_le hlen,
      fun _ => isResponse_flagsRsp (by omega)⟩
  | stateQ =>
    cases h
    have hstr := length_fmt_le_strMax r.cfg r.relay
    have hmax := strMax_lt hn
    exact .answer ⟨Nat.le_add_left 1 _, length_strRsp_le _ _,
      fun _ => isResponse_bytes (.inl rfl) (by omega)⟩
  | getQ =>
    cases h
    exact .answer ⟨Nat.le_add_left 1 _, length_intRsp_le _ _, fun _ => isResponse_intRsp _⟩
  | ident =>
    cases h
    exact .answer ⟨Nat.le_add_left 1 _, length_identRsp_le _,
      fun _ => isResponse_bytes (.inr rfl) (by omega)⟩

theorem offerable_errorRsp {r : State} {e : BitVec 8} (hne : e ≠ 0#8)
    (h7 : r.ErrKnown → e.toNat ≤ 7) : Offerable r (errorRsp e) :=
  ⟨Nat.le_refl 1, length_errorRsp_le _ _, fun hk => isResponse_errorRsp hne (h7 hk)⟩

theorem finalErr_le {r : State} (h : r.ErrKnown) (cl : ArgClass) : (r.finalErr cl).toNat ≤ 7 := by
  unfold State.finalErr
  split
  · decide
  · exact h

/-! What a taken command word can do -/

/-- A word of a command with the dispatcher's registers `r` written leaves this state (R119). -/
inductive WordTaken (s r : State) : State → Prop where
  | more (hlast : s.input.cmdLast = false)
      (hknown : (instrOfOpcode r.op).isSome = true ∨ r.err ≠ 0#8) :
      WordTaken s r { r with ctl := .args }
  | last {t : State} (hlast : s.input.cmdLast = true) (hend : Ending r t) : WordTaken s r t

theorem exec_taken {i : Instr} {s t : State} (ha : s.accepts = true) (hs : s.Bounded)
    (hop : s.ctl ≠ .idle → instrOfOpcode s.op = some i) (h : exec i s = .next t) :
    WordTaken s (received i s) t := by
  obtain ⟨hb, -⟩ := received_keepsBounds i s
  obtain ⟨hn, -⟩ | ⟨-, hl, he⟩ | ⟨-, hl, hne, he⟩ | ⟨-, hl, -, he⟩ := exec_cases i s
  · rw [ha] at hn
    cases hn
  all_goals rw [he] at h
  · cases h
    refine .more hl (.inl ?_)
    by_cases hctl : s.ctl = .idle
    · rw [received_idle hctl, State.beginCommand_op, instrOfOpcode_eq_some_iff.mpr rfl]
      rfl
    · have hkeep : (received i s).op = s.op := by
        unfold received
        rw [if_neg hctl]
        unfold State.argWord
        rw [State.countArg_op]
        split
        · rw [argRule_frame]
        · rfl
      rw [hkeep, hop hctl]
      rfl
  · cases h
    exact .last hl (.answer (offerable_errorRsp hne fun hk => finalErr_le hk _))
  · exact .last hl (action_ending (hb hs) h)

theorem illegalWord_taken {s t : State} (h : s.illegalWord = .next t) :
    ∃ r, s.DispatchedFrom r ∧ s.KeepsBounds r ∧ WordTaken s r t := by
  obtain ⟨r, hr, hne, ht⟩ := illegalWord_next h
  have hframe : s.DispatchedFrom r ∧ s.KeepsBounds r := by
    rw [hr]
    split
    · exact ⟨rfl, beginCommand_keepsBounds _ (by decide) s⟩
    · refine ⟨?_, countArg_keepsBounds s⟩
      rw [State.DispatchedFrom, countArg_frame]
  refine ⟨r, hframe.1, hframe.2, ?_⟩
  obtain ⟨hl, rfl⟩ | ⟨hl, rfl⟩ := ht
  · exact .last hl (.answer (offerable_errorRsp hne id))
  · exact .more hl (.inr hne)

theorem commandWord_taken {s t : State} (ha : s.accepts = true) (hs : s.Bounded)
    (h : s.commandWord = .next t) :
    ∃ r, s.DispatchedFrom r ∧ s.KeepsBounds r ∧ WordTaken s r t := by
  obtain ⟨i, hw, hi⟩ | ⟨hw, -⟩ := commandWord_cases s <;> rw [hw] at h
  · refine ⟨received i s, received_frame i s, received_keepsBounds i s, exec_taken ha hs ?_ h⟩
    intro hne
    obtain ⟨hctl, -⟩ | ⟨-, hop⟩ := hi
    · exact absurd hctl hne
    · exact hop
  · exact illegalWord_taken h

theorem accepts_of_listening {s : State} (h : s.Listening) (hvalid : s.input.cmdValid = true) :
    s.accepts = true := by
  obtain ⟨hctl, hquiet⟩ | hctl := h
  · exact accepts_of_idle hctl hquiet hvalid
  · exact accepts_of_args hctl hvalid

/-- The row of a taken word, in the terms of `WordTaken`. -/
theorem Row.wordTaken {s u : State} (hs : s.Bounded) (hlisten : s.Listening)
    (hvalid : s.input.cmdValid = true) (h : s.lowered.commandWord = .next u) :
    ∃ r, s.lowered.DispatchedFrom r ∧ s.KeepsBounds r ∧ WordTaken s r u := by
  obtain ⟨r, hr, hb, ht⟩ :=
    commandWord_taken (s := s.lowered) (accepts_of_listening (s := s) hlisten hvalid) hs h
  refine ⟨r, hr, hb, ?_⟩
  cases ht with
  | more hlast hknown => exact .more hlast hknown
  | last hlast hend => exact .last hlast hend

theorem State.DispatchedFrom.seq_eq {s r : State} (h : s.DispatchedFrom r) : r.seq = s.seq := by
  rw [h]

theorem State.DispatchedFrom.relay_eq {s r : State} (h : s.DispatchedFrom r) :
    r.relay = s.relay := by
  rw [h]

end Sys2Proof.Machine

/-! The invariants of a step (R120) and what a step does in each row of R119. -/

namespace Sys2Proof.Machine

/-! Sound states, by their `ctl` -/

/-- Soundness does not read the debouncer, `mev_stb` and the environment. -/
theorem State.Sound.of_block {t u : State} (h : t.block = u.block) (hu : u.Sound) : t.Sound := by
  rwa [eq_of_block State.Sound h]

theorem State.Sound.lowered {s : State} (h : s.Sound) : s.lowered.Sound := h

theorem sound_of_idle {u : State} (hb : u.Bounded) (hseq : u.seq = .idle) (hctl : u.ctl = .idle) :
    u.Sound := by
  obtain ⟨hl, hf, hr⟩ := hb
  refine ⟨hl, ⟨?_, ?_, ?_, hf⟩, hr, ?_⟩ <;>
    simp [State.PathsAgree, State.DelayInRange, State.ResponseInRange, State.CommandKnown, hseq,
      hctl]

theorem sound_of_args {u : State} (hb : u.Bounded) (hseq : u.seq = .idle) (hctl : u.ctl = .args)
    (hknown : (instrOfOpcode u.op).isSome = true ∨ u.err ≠ 0#8) : u.Sound := by
  obtain ⟨hl, hf, hr⟩ := hb
  refine ⟨hl, ⟨?_, ?_, ?_, hf⟩, hr, fun _ => hknown⟩ <;>
    simp [State.PathsAgree, State.DelayInRange, State.ResponseInRange, hseq, hctl]

theorem sound_of_rsp {u : State} (hb : u.Bounded) (hseq : u.seq = .idle) (hctl : u.ctl = .rsp)
    (hridx : u.ridx.toNat < u.rbuf.length) : u.Sound := by
  obtain ⟨hl, hf, hr⟩ := hb
  obtain ⟨-, -, -, hlen⟩ := id hr
  refine ⟨hl, ⟨?_, ?_, fun _ => ⟨by omega, hlen, hridx⟩, hf⟩, hr, ?_⟩ <;>
    simp [State.PathsAgree, State.DelayInRange, State.CommandKnown, hseq, hctl]

theorem sound_of_busy {u : State} (hb : u.Bounded) (hseq : u.seq = .busy)
    (hctl : u.ctl = .seq ∨ u.ctl = .man)
    (hdly : 1 ≤ u.dly.toNat ∧ u.dly.toNat ≤ max u.cfg.tOp u.cfg.tRel) : u.Sound := by
  obtain ⟨hl, hf, hr⟩ := hb
  refine ⟨hl, ⟨iff_of_true hseq hctl, fun _ => hdly, ?_, hf⟩, hr, ?_⟩
  all_goals
    intro hc
    rw [hc] at hctl
    simp at hctl

/-- `ctl` shows whether a phase runs (R120). -/
theorem seq_idle_of_ctl {s : State} (h : s.PathsAgree) (hs : s.ctl ≠ .seq) (hm : s.ctl ≠ .man) :
    s.seq = .idle := by
  cases hseq : s.seq with
  | idle => rfl
  | busy => exact ((h.mp hseq).elim hs hm).elim

theorem seq_idle_of_listening {s : State} (h : s.PathsAgree) (hlisten : s.Listening) :
    s.seq = .idle := by
  obtain ⟨hctl, -⟩ | hctl := hlisten <;> exact seq_idle_of_ctl h (by simp [hctl]) (by simp [hctl])

theorem seq_idle_of_idle {s : State} (h : s.Sound) (hctl : s.ctl = .idle) : s.seq = .idle :=
  seq_idle_of_ctl h.2.1.1 (by simp [hctl]) (by simp [hctl])

/-! Phase writes -/

theorem delay_toNat {k : Nat} (h : k ≤ 65535) : (BitVec.ofNat 16 k).toNat = k := by
  rw [BitVec.toNat_ofNat]
  omega

/-- A phase write with a cut mask keeps the bounds and sets a delay in range (R73). -/
theorem phaseWrite_bounds {s : State} (hs : s.Bounded) (k : Kind) {m : Mask}
    (hm : s.cfg.cut m = m) :
    (s.phaseWrite k m).Bounded ∧ 1 ≤ (s.phaseWrite k m).dly.toNat ∧
      (s.phaseWrite k m).dly.toNat ≤ max s.cfg.tOp s.cfg.tRel := by
  obtain ⟨hl, hf, hr, hp, ha, hb⟩ := hs
  obtain ⟨-, -, ⟨ho1, ho2⟩, ⟨hr1, hr2⟩, -⟩ := id hl
  cases k with
  | opn =>
    rw [State.phaseWrite_opn_dly, delay_toNat hr2]
    exact ⟨⟨hl, hf, cut_and_left hr _, hp, ha, hb⟩, hr1, le_max_right ..⟩
  | cls =>
    rw [State.phaseWrite_cls_dly, delay_toNat ho2]
    exact ⟨⟨hl, hf, cut_or_self hr hm, hp, ha, hb⟩, ho1, le_max_left ..⟩

theorem holdSecond_bounded {s : State} (hs : s.Bounded) {o : Option (Kind × Mask)}
    (ho : ∀ k m, o = some (k, m) → s.cfg.cut m = m) : (s.holdSecond o).Bounded := by
  obtain ⟨hl, hf, hr, hp, ha, hb⟩ := hs
  rcases o with _ | ⟨k, m⟩
  · exact ⟨hl, hf, hr, hp, ha, hb⟩
  · exact ⟨hl, hf, hr, ho k m rfl, ha, hb⟩

theorem first_cut {c : Config} {r : Mask} (hr : c.cut r = r) (spec : SeqSpec) :
    c.cut (spec.first c r).2 = (spec.first c r).2 := by
  cases spec with
  | opn m | cls m | setMbb m => exact cut_cut c m
  | setBbm t => exact cut_and_left hr _

theorem second_cut {c : Config} {r : Mask} (hr : c.cut r = r) {spec : SeqSpec} {k : Kind} {m : Mask}
    (h : spec.second c r = some (k, m)) : c.cut m = m := by
  cases spec with
  | opn _ | cls _ => cases h
  | setBbm t =>
    cases h
    exact cut_cut c t
  | setMbb t =>
    cases h
    exact cut_and_left hr _

/-- A started sequence keeps the bounds and has a delay in range (R74). -/
theorem rbStart_bounds {s u : State} {spec : SeqSpec} (hs : s.Bounded)
    (h : s.rbStart spec = .next u) :
    u.Bounded ∧ 1 ≤ u.dly.toNat ∧ u.dly.toNat ≤ max u.cfg.tOp u.cfg.tRel := by
  obtain ⟨-, rfl⟩ := rbStart_next h
  obtain ⟨-, -, hr, -⟩ := id hs
  obtain ⟨hb, hd1, hd2⟩ := phaseWrite_bounds hs (spec.first s.cfg s.relay).1 (first_cut hr spec)
  refine ⟨holdSecond_bounded hb fun k m ho => ?_, ?_⟩
  · rw [State.phaseWrite_cfg]
    exact second_cut hr ho
  · simpa using And.intro hd1 hd2

/-- A sequence that a bounded state starts leads to a sound state that waits for it. -/
theorem sound_of_rbStart {s u : State} {spec : SeqSpec} (hs : s.Bounded)
    (h : s.rbStart spec = .next u) {c : Ctl} (hc : c = .seq ∨ c = .man) (ev : BitVec 2) (b : Bool) :
    State.Sound { u with ctl := c, mev := ev, mevStb := b } := by
  obtain ⟨hb, hd⟩ := rbStart_bounds hs h
  have hbusy : u.seq = .busy := rbStart_seq h
  exact sound_of_busy hb hbusy hc hd

/-! Every row keeps the invariants -/

theorem Ending.sound {r t : State} (hr : r.Bounded) (hseq : r.seq = .idle) (h : Ending r t) :
    t.Sound := by
  cases h with
  | answer hl =>
    obtain ⟨h1, hmax, -⟩ := hl
    obtain ⟨hl, hf, hrep, hp, ha, -⟩ := hr
    exact sound_of_rsp ⟨hl, hf, hrep, hp, ha, hmax⟩ hseq rfl (by simp; omega)
  | start hu => exact sound_of_rbStart hr hu (.inl rfl) _ _

theorem WordTaken.sound {s r t : State} (hr : r.Bounded) (hseq : r.seq = .idle)
    (h : WordTaken s r t) : t.Sound := by
  cases h with
  | more _ hknown => exact sound_of_args hr hseq rfl hknown
  | last _ hend => exact hend.sound hr hseq

theorem rbufMax_le {c : Config} (h : c.Legal) : c.rbufMax ≤ 65536 := by
  obtain ⟨⟨-, hn⟩, -, -, -, ⟨-, hq⟩, hid⟩ := h
  have := strMax_lt hn
  unfold Config.rbufMax
  omega

/-- Taking a word that is not the last one counts up without a wrap. -/
theorem takeWord_cases {s : State} (hs : s.Sound) (hctl : s.ctl = .rsp) :
    (s.ridx.toNat + 1 = s.rbuf.length ∧
      s.takeWord = { s with rbuf := [], ridx := 0#16, ctl := .idle }) ∨
    (s.ridx.toNat + 1 < s.rbuf.length ∧ s.takeWord = { s with ridx := s.ridx + 1#16 } ∧
      (s.ridx + 1#16).toNat = s.ridx.toNat + 1) := by
  obtain ⟨hl, ⟨-, -, hrsp, -⟩, -, -⟩ := hs
  obtain ⟨-, hmax, hlt⟩ := hrsp hctl
  have hle := rbufMax_le hl
  unfold State.takeWord
  by_cases hend : s.ridx.toNat + 1 = s.rbuf.length
  · exact .inl ⟨hend, if_pos hend⟩
  · refine .inr ⟨by omega, if_neg hend, ?_⟩
    rw [BitVec.toNat_add]
    simp
    omega

theorem Row.sound {s u : State} (hs : s.Sound) (h : Row s u) : u.Sound := by
  have hb := hs.bounded
  obtain ⟨hl, ⟨hagree, hdelay, hrsp, hflags⟩, ⟨hrel, hp2m, ham, hlen⟩, hknown⟩ := id hs
  cases h with
  | manual hctl hquiet hman =>
    obtain ⟨-, v, hv, rfl⟩ := manual_next hman
    exact sound_of_rbStart (s := s.lowered) hb hv (.inr rfl) _ _
  | word hlisten hvalid hword =>
    obtain ⟨r, hr, ⟨hrb, -⟩, ht⟩ := Row.wordTaken hb hlisten hvalid hword
    exact ht.sound (hrb hb) (hr.seq_eq.trans (seq_idle_of_listening hagree hlisten))
  | noWord | hold | offer => exact hs
  | count hseq _ hdly =>
    have hd : (s.dly - 1#16).toNat = s.dly.toNat - 1 := by
      rw [BitVec.toNat_sub_of_le (by rw [BitVec.le_def]; simp; omega)]
      rfl
    obtain ⟨-, hd2⟩ := hdelay hseq
    exact sound_of_busy hb hseq (hagree.mp hseq) ⟨by show 1 ≤ (s.dly - 1#16).toNat; omega,
      by show (s.dly - 1#16).toNat ≤ max s.cfg.tOp s.cfg.tRel; omega⟩
  | second hseq _ _ hp2 =>
    obtain ⟨hwb, hd⟩ := phaseWrite_bounds (s := s.lowered) hb s.p2Kind hp2m
    refine sound_of_busy ?_ (State.phaseWrite_seq ..) ?_ ?_
    · exact hwb
    · rw [show State.ctl { s.lowered.phaseWrite s.p2Kind s.p2Mask with p2Valid := false } = s.ctl
        from State.phaseWrite_ctl ..]
      exact hagree.mp hseq
    · simpa using hd
  | ack =>
    refine sound_of_rsp ⟨hl, hflags, hrel, hp2m, ham, length_ackRsp_le _⟩ rfl rfl ?_
    exact Nat.zero_lt_one
  | done => exact sound_of_idle hb rfl rfl
  | take hctl _ =>
    have hseq : s.seq = .idle := seq_idle_of_ctl hagree (by simp [hctl]) (by simp [hctl])
    obtain ⟨-, ht⟩ | ⟨hlt, ht, hnat⟩ := takeWord_cases hs.lowered hctl <;> rw [ht]
    · exact sound_of_idle ⟨hl, hflags, hrel, hp2m, ham, Nat.zero_le _⟩ hseq rfl
    · exact sound_of_rsp hb hseq hctl (hnat.trans_lt hlt)

/-- Settles O55: a reset leads to RESET_STATE, and every row keeps the invariants. -/
theorem stepKeepsSoundness : Obligations.StepKeepsSoundness := by
  intro s t hs h
  cases hrst : s.input.rst with
  | true =>
    obtain ⟨hl, ⟨-, rfl⟩ | ⟨hr, -⟩⟩ := step_next h
    · exact sound_of_idle ⟨hl, Nat.zero_le _, cut_zero _, cut_zero _, cut_zero _, Nat.zero_le _⟩
        rfl rfl
    · rw [hrst] at hr
      cases hr
  | false =>
    obtain ⟨-, -, u, a, hrow, rfl⟩ := step_row h hrst
    exact (hrow.sound hs).of_block (endStep_block s a u)

/-! Every row keeps responses and error codes -/

theorem Row.responses {s u : State} (hs : s.Sound) (herr : s.ErrKnown) (hrsp : s.ResponseKnown)
    (h : Row s u) : u.ErrKnown ∧ u.ResponseKnown := by
  cases h with
  | manual hctl hquiet hman =>
    obtain ⟨-, v, hv, rfl⟩ := manual_next hman
    obtain ⟨-, rfl⟩ := rbStart_next hv
    refine ⟨?_, fun hc => by cases hc⟩
    simpa [State.ErrKnown, State.lowered] using herr
  | word hlisten hvalid hword =>
    obtain ⟨r, -, ⟨-, hk⟩, ht⟩ := Row.wordTaken hs.bounded hlisten hvalid hword
    have hk : r.ErrKnown := hk herr
    cases ht with
    | more => exact ⟨hk, fun hc => by cases hc⟩
    | last _ hend =>
      cases hend with
      | answer hl => exact ⟨hk, fun _ => hl.2.2 hk⟩
      | start hu =>
        obtain ⟨-, rfl⟩ := rbStart_next hu
        refine ⟨?_, fun hc => by cases hc⟩
        simpa [State.ErrKnown] using hk
  | noWord | hold | offer | count => exact ⟨herr, hrsp⟩
  | second hseq =>
    have hctl := hs.2.1.1.mp hseq
    refine ⟨by simpa [State.ErrKnown, State.lowered] using herr, fun hc => ?_⟩
    rw [show State.ctl { s.lowered.phaseWrite s.p2Kind s.p2Mask with p2Valid := false } = s.ctl from
      State.phaseWrite_ctl ..] at hc
    simp [hc] at hctl
  | ack => exact ⟨herr, fun _ => isResponse_ackRsp⟩
  | done => exact ⟨herr, fun hc => by cases hc⟩
  | take hctl _ =>
    obtain ⟨-, ht⟩ | ⟨-, ht, -⟩ := takeWord_cases hs.lowered hctl <;> rw [ht]
    · exact ⟨herr, fun hc => by cases hc⟩
    · exact ⟨herr, fun _ => hrsp hctl⟩

/-- Settles O59: a reset offers nothing, and every row keeps what is offered a response. -/
theorem responsesStayWellFormed : Obligations.ResponsesStayWellFormed := by
  intro s t hs herr hrsp h
  cases hrst : s.input.rst with
  | true =>
    obtain ⟨-, ⟨-, rfl⟩ | ⟨hr, -⟩⟩ := step_next h
    · exact ⟨Nat.zero_le _, fun hc => by cases hc⟩
    · rw [hrst] at hr
      cases hr
  | false =>
    obtain ⟨-, -, u, a, hrow, rfl⟩ := step_row h hrst
    obtain ⟨he, hk⟩ := hrow.responses hs herr hrsp
    have hblock := endStep_block s a u
    exact ⟨by rwa [eq_of_block State.ErrKnown hblock],
      by rwa [eq_of_block State.ResponseKnown hblock]⟩

/-! A sound state steps -/

theorem exists_startCmd {s : State} (h : s.seq = .idle) (spec : SeqSpec) :
    ∃ t, s.startCmd spec = .next t :=
  ⟨_, startCmd_idle h spec⟩

theorem exists_action {s : State} (h : s.seq = .idle) (i : Instr) : ∃ t, action i s = .next t := by
  cases i with
  | opn | cls | opnAll | set | setMbb => exact exists_startCmd h _
  | clsQ | stateQ | getQ | ident => exact ⟨_, rfl⟩

theorem exists_exec {s : State} (h : s.seq = .idle) (i : Instr) : ∃ t, exec i s = .next t := by
  obtain ⟨-, he⟩ | ⟨-, -, he⟩ | ⟨-, -, -, he⟩ | ⟨-, -, -, he⟩ := exec_cases i s <;> rw [he]
  case inr.inr.inr =>
    refine exists_action ?_ i
    rw [received_frame]
    exact h
  all_goals exact ⟨_, rfl⟩

theorem exists_illegalWord {s : State} (h : s.ctl ≠ .idle → s.err ≠ 0#8) :
    ∃ t, s.illegalWord = .next t := by
  have hne : (if s.ctl = .idle then
      s.beginCommand (headerOpcode s.input.cmdData) ErrCode.opcode.code
      else s.countArg).err ≠ 0#8 := by
    split
    · rw [State.beginCommand_err]
      decide
    · rename_i hctl
      rw [State.countArg_err]
      exact h hctl
  unfold State.illegalWord
  dsimp only
  rw [if_neg hne]
  split <;> exact ⟨_, rfl⟩

theorem exists_commandWord {s : State} (hs : s.Sound) (hctl : s.ctl = .idle ∨ s.ctl = .args) :
    ∃ t, s.commandWord = .next t := by
  obtain ⟨-, ⟨hagree, -⟩, -, hknown⟩ := hs
  have hseq : s.seq = .idle := by
    obtain hctl | hctl := hctl <;> exact seq_idle_of_ctl hagree (by simp [hctl]) (by simp [hctl])
  obtain ⟨i, hw, -⟩ | ⟨hw, hi⟩ := commandWord_cases s <;> rw [hw]
  · exact exists_exec hseq i
  · refine exists_illegalWord fun hne => ?_
    obtain ⟨hi, -⟩ | ⟨-, hop⟩ := hi
    · exact absurd hi hne
    · have := hknown (hctl.resolve_left hne)
      simpa [hop] using this

theorem exists_manual {s : State} (h : s.seq = .idle) (ev : BitVec 2) :
    ∃ t, s.manual ev = .next t := by
  unfold State.manual
  rw [rbStart_idle h]
  exact ⟨_, rfl⟩

theorem exists_control {s : State} (ev : BitVec 2) (done : Bool)
    (hidle : s.ctl = .idle → s.seq = .idle)
    (hword : s.ctl = .idle ∨ s.ctl = .args → ∃ t, s.commandWord = .next t) :
    ∃ t, s.control ev done = .next t := by
  unfold State.control
  cases hctl : s.ctl with
  | idle =>
    dsimp only
    split
    · exact exists_manual (hidle hctl) ev
    · split
      · exact hword (.inl hctl)
      · exact ⟨_, rfl⟩
  | args =>
    dsimp only
    split
    · exact hword (.inr hctl)
    · exact ⟨_, rfl⟩
  | seq | man | rsp => exact ⟨_, rfl⟩

theorem exists_runStep {s : State} (hs : s.Sound) : ∃ t, s.runStep = .next t := by
  have hctl : (advanced s).ctl = s.ctl := by rw [advanced_frame]
  have hlow : s.ctl = .idle ∨ s.ctl = .args → advanced s = s.lowered := fun hc => by
    refine (advanced_idle (seq_idle_of_ctl hs.2.1.1 ?_ ?_)).1 <;>
      obtain hc | hc := hc <;> simp [hc]
  obtain ⟨u, hu⟩ := exists_control (s := advanced s) (s.debRead (s.ctl == .idle)).1 (seqDone s)
    (fun hc => by
      rw [hctl] at hc
      rw [hlow (.inl hc)]
      exact seq_idle_of_idle hs hc)
    (fun hc => by
      rw [hctl] at hc
      rw [hlow hc]
      exact exists_commandWord hs.lowered hc)
  exact ⟨_, runStep_of_control hu⟩

/-- Settles O57: a reset or a running step answers. -/
theorem soundStatesAlwaysStep : Obligations.SoundStatesAlwaysStep := by
  intro s hs
  cases hrst : s.input.rst with
  | true =>
    refine ⟨s.resetStep, ?_⟩
    rw [step, clockStep, if_neg (not_not.mpr hs.1), if_pos hrst]
  | false =>
    rw [hs.step_eq hrst]
    exact exists_runStep hs

/-! Where a step stops -/

/-- The answer is no refusal. -/
def NotRefused (r : Result) : Prop :=
  ∀ e, r ≠ .refused e

theorem notRefused_next (t : State) : NotRefused (.next t) := fun _ h => by cases h

theorem notRefused_fault (f : Fault) : NotRefused (.fault f) := fun _ h => by cases h

theorem notRefused_startCmd (s : State) (spec : SeqSpec) : NotRefused (s.startCmd spec) := by
  cases hseq : s.seq with
  | idle => rw [startCmd_idle hseq]; exact notRefused_next _
  | busy => rw [startCmd_busy hseq]; exact notRefused_fault _

theorem notRefused_manual (s : State) (ev : BitVec 2) : NotRefused (s.manual ev) := by
  unfold State.manual
  cases hseq : s.seq with
  | idle => rw [rbStart_idle hseq]; exact notRefused_next _
  | busy => rw [rbStart_busy hseq]; exact notRefused_fault _

theorem notRefused_exec (i : Instr) (s : State) : NotRefused (exec i s) := by
  obtain ⟨-, he⟩ | ⟨-, -, he⟩ | ⟨-, -, -, he⟩ | ⟨-, -, -, he⟩ := exec_cases i s <;> rw [he]
  case inr.inr.inr =>
    cases i with
    | opn | cls | opnAll | set | setMbb => exact notRefused_startCmd _ _
    | clsQ | stateQ | getQ | ident => exact notRefused_next _
  all_goals exact notRefused_next _

theorem notRefused_commandWord (s : State) : NotRefused s.commandWord := by
  obtain ⟨i, hw, -⟩ | ⟨hw, -⟩ := commandWord_cases s <;> rw [hw]
  · exact notRefused_exec i s
  · unfold State.illegalWord
    dsimp only
    generalize (if s.ctl = .idle then
      s.beginCommand (headerOpcode s.input.cmdData) ErrCode.opcode.code else s.countArg) = u
    split
    · exact notRefused_fault _
    · split <;> exact notRefused_next _

theorem notRefused_control (s : State) (ev : BitVec 2) (done : Bool) :
    NotRefused (s.control ev done) := by
  unfold State.control
  split
  · split
    · exact notRefused_manual s ev
    · split
      · exact notRefused_commandWord s
      · exact notRefused_next _
  · split
    · exact notRefused_commandWord s
    · exact notRefused_next _
  all_goals exact notRefused_next _

theorem notRefused_runStep (s : State) : NotRefused s.runStep := by
  unfold State.runStep
  dsimp only
  split
  · exact notRefused_next _
  · exact notRefused_fault _
  · rename_i r hr
    exact absurd hr (notRefused_control _ _ _ r)

/-- Settles O54: the tests of a step in their order; no row refuses. -/
theorem whereAStepStops : Obligations.WhereAStepStops := by
  intro s
  refine ⟨⟨fun h hl => ?_, fun hl => ?_⟩, fun hl hr hi => ?_, fun hl hr hi hp => ?_⟩
  · rw [step, clockStep, if_neg (not_not.mpr hl)] at h
    split at h
    · cases h
    · split at h
      · cases h
      · split at h
        · cases h
        · exact notRefused_runStep s _ h
  · rw [step, clockStep, if_pos hl]
  · rw [step, clockStep, if_neg (not_not.mpr hl), if_neg (by simp [hr]), if_pos hi]
  · rw [step, clockStep, if_neg (not_not.mpr hl), if_neg (by simp [hr]), if_neg (not_not.mpr hi),
      if_pos hp]

/-! Reset and outputs -/

/-- Settles O56: RESET_STATE is idle and holds zeros. -/
theorem resetIsSound : Obligations.ResetIsSound := by
  have hreset : ∀ (cfg : Config) (l : List Inputs) (k : Nat), cfg.Legal →
      let s := State.resetWith cfg l k
      s.Sound ∧ s.ErrKnown ∧ s.ResponseKnown ∧ s.err = 0#8 ∧ s.ctl = .idle ∧
      s.rspValid = false := by
    intro cfg l k hl s
    have hb : s.Bounded :=
      ⟨hl, Nat.zero_le _, cut_zero _, cut_zero _, cut_zero _, Nat.zero_le _⟩
    exact ⟨sound_of_idle hb rfl rfl, Nat.zero_le _, fun hc => (by cases hc), rfl, rfl, rfl⟩
  exact ⟨hreset, hreset _ [] 0 (by decide)⟩

/-- Settles O51: the reset goes before the tests of the state. -/
theorem resetGivesResetState : Obligations.ResetGivesResetState := by
  intro s I rest hl hin hrst
  have hrst : s.input.rst = true := by rwa [State.input_cons s I rest hin]
  rw [step, clockStep, if_neg (not_not.mpr hl), if_pos hrst, State.resetStep, State.nextInput, hin]
  rfl

/-- Settles O52: the outputs are read off the state. -/
theorem outputsInAndAfterReset : Obligations.OutputsInAndAfterReset :=
  ⟨fun _ => ⟨rfl, rfl⟩, fun _ _ _ => rfl⟩

/-- Settles O43: by R120 a phase runs in C_SEQ and C_MAN alone, where the ports are closed. -/
theorem nothingMovesWhileBusy : Obligations.NothingMovesWhileBusy := by
  rintro s rst ⟨hagree, -⟩
  have hbusy : (s.outputs rst).busy = true ↔ rst = false ∧ s.seq = .busy := by
    cases rst <;> simp [State.outputs, State.busy]
  have hrsp : s.ctl = .seq ∨ s.ctl = .man → (s.outputs rst).rspValid = false := by
    rintro (hctl | hctl) <;> cases rst <;> simp [State.outputs, State.rspValid, hctl]
  have hready : s.ctl = .seq ∨ s.ctl = .man ∨ s.ctl = .rsp → (s.outputs rst).cmdReady = false := by
    rintro (hctl | hctl | hctl) <;> cases rst <;> simp [State.outputs, State.cmdReady, hctl]
  refine ⟨hbusy, fun hs => hrsp (hagree.mp hs), ?_⟩
  rintro (hs | hv)
  · exact hready ((hagree.mp hs).imp_right .inl)
  · refine hready (.inr (.inr ?_))
    cases rst
    · simpa [State.outputs, State.rspValid] using hv
    · simp [State.outputs] at hv

/-! The step of a taken word -/

theorem fires_of_listening {s : State} (h : s.Listening) : s.fires = false := by
  obtain ⟨-, hquiet⟩ | hctl := h
  · simp [State.fires, hquiet]
  · simp [State.fires, hctl]

/-- Settles O53: while no phase runs and no read fires, the step is the command word. -/
theorem stepRunsTheDecodedCommand : Obligations.StepRunsTheDecodedCommand := by
  intro s i hs hrst hvalid hcmd
  have hlisten : s.Listening := by
    obtain ⟨hctl, hquiet, -⟩ | ⟨hctl, -⟩ := hcmd
    · exact .inl ⟨hctl, hquiet⟩
    · exact .inr hctl
  obtain ⟨hadv, hdone⟩ := advanced_idle (seq_idle_of_listening hs.2.1.1 hlisten)
  have hexec : s.lowered.commandWord = exec i s.lowered := by
    unfold State.commandWord
    obtain ⟨hctl, -, hd⟩ | ⟨hctl, ho⟩ := hcmd
    · rw [if_pos (by exact hctl), show s.lowered.input = s.input from rfl, hd]
    · rw [if_neg (by simp [State.lowered, hctl]), show s.lowered.op = s.op from rfl, ho]
  have hcontrol : s.lowered.control 0#2 false = exec i s.lowered := by
    have hv : s.lowered.input.cmdValid = true := hvalid
    rw [← hexec]
    obtain ⟨hctl, -⟩ | hctl := hlisten <;>
      simp [State.control, show s.lowered.ctl = s.ctl from rfl, hctl, hv]
  have hread : s.debRead (s.ctl == .idle) = (0#2, s.acc) := by
    rw [debRead_eq, fires_of_listening hlisten]
    rfl
  have hcontrol' : (advanced s).control 0#2 (seqDone s) = exec i { s with mevStb := false } := by
    rw [hadv, hdone]
    exact hcontrol
  rw [hs.step_eq hrst, State.runStep, hread]
  unfold advanced seqDone at hcontrol'
  dsimp only
  rw [hcontrol']
  rfl

/-! What a row does to `ctl` and the relays -/

theorem Ending.ctl {r t : State} (h : Ending r t) : t.ctl = .seq ∨ t.ctl = .rsp := by
  cases h with
  | answer => exact .inr rfl
  | start => exact .inl rfl

/-- Settles O42: each row names the next `ctl`. -/
theorem controlTransitions : Obligations.ControlTransitions := by
  intro s t h hrst
  obtain ⟨hb, ⟨hagree, -⟩, u, a, hrow, rfl⟩ := step_row h hrst
  rw [eq_of_block State.ctl (endStep_block s a u)]
  cases hrow with
  | manual hctl hquiet hman =>
    obtain ⟨-, v, -, rfl⟩ := manual_next hman
    simp [hctl, hquiet]
  | word hlisten hvalid hword =>
    obtain ⟨r, -, -, ht⟩ := Row.wordTaken hb hlisten hvalid hword
    cases ht with
    | more hlast => obtain ⟨hctl, hquiet⟩ | hctl := hlisten <;> simp [*]
    | last hlast hend =>
      have hnext := hend.ctl
      obtain ⟨hctl, hquiet⟩ | hctl := hlisten <;> simp [*]
  | noWord hlisten hvalid =>
    obtain ⟨hctl, hquiet⟩ | hctl := hlisten <;> simp [State.lowered, *]
  | hold hseq htick =>
    obtain hctl | hctl := hagree.mp hseq <;> simp [State.lowered, hctl, htick]
  | count hseq htick hdly =>
    have hne : s.dly ≠ 1#16 := fun hd => by simp [hd] at hdly
    obtain hctl | hctl := hagree.mp hseq <;> simp [State.lowered, hctl, hne]
  | second hseq htick hdly hp2 =>
    obtain hctl | hctl := hagree.mp hseq <;> simp [State.lowered, hctl, hp2]
  | ack hseq hctl htick hdly hp2 => simp [hctl, htick, hdly, hp2]
  | done hseq hctl htick hdly hp2 => simp [hctl, htick, hdly, hp2]
  | take hctl hready =>
    by_cases hend : s.ridx.toNat + 1 = s.rbuf.length <;>
      simp [State.lowered, State.takeWord, hctl, hready, hend]
  | offer hctl hready => simp [State.lowered, hctl, hready]

/-- Settles O35: a row that starts no sequence and ends no first phase keeps the relays. -/
theorem relaysChangeOnlyByPhaseWrites : Obligations.RelaysChangeOnlyByPhaseWrites := by
  intro s t h hrst hne
  obtain ⟨hb, ⟨hagree, -⟩, u, a, hrow, rfl⟩ := step_row h hrst
  have hblock := endStep_block s a u
  rw [eq_of_block State.relay hblock] at hne ⊢
  rw [eq_of_block State.seq hblock, eq_of_block State.p2Valid hblock]
  cases hrow with
  | manual hctl hquiet hman =>
    obtain ⟨hidle, v, hv, rfl⟩ := manual_next hman
    have hbusy : v.seq = .busy := rbStart_seq hv
    exact .inl ⟨hidle, hbusy, .inl ⟨hctl, hquiet⟩⟩
  | word hlisten hvalid hword =>
    obtain ⟨r, hr, -, ht⟩ := Row.wordTaken hb hlisten hvalid hword
    have hrelay : r.relay = s.relay := hr.relay_eq
    cases ht with
    | more => exact absurd hrelay hne
    | last hlast hend =>
      cases hend with
      | answer => exact absurd hrelay hne
      | @start _ v hu =>
        have hbusy : v.seq = .busy := rbStart_seq hu
        exact .inl ⟨seq_idle_of_listening hagree hlisten, hbusy,
          .inr ⟨hlisten.imp_left And.left, hvalid, hlast⟩⟩
  | second hseq htick hdly hp2 =>
    refine .inr ⟨hseq, State.phaseWrite_seq .., htick, hdly, hp2, rfl, ?_⟩
    cases hk : s.p2Kind <;> rfl
  | take => exact absurd (State.takeWord_relay _) hne
  | noWord | hold | count | ack | done | offer => exact absurd rfl hne

/-! The debouncer over a step -/

/-- Settles O38: the accumulator is emptied by a read that fires alone. -/
theorem pendingEventsAreKept : Obligations.PendingEventsAreKept := by
  intro s t h hrst hfires
  obtain ⟨-, -, hacc⟩ := debouncerStep s t h hrst
  rw [hacc, hfires, if_neg (by simp)]
  refine BitVec.eq_of_getLsbD_eq fun k _ => ?_
  simp only [BitVec.getLsbD_and, BitVec.getLsbD_or]
  cases s.acc.getLsbD k <;> simp

/-- Settles O37: the sample is one tick old after its step. -/
theorem sampledButtonIsNotQuiet : Obligations.SampledButtonIsNotQuiet := by
  intro s t h hrst htick hbtn
  obtain ⟨hnow, hlast, hacc⟩ := debouncerStep s t h hrst
  rw [if_pos htick] at hnow
  rw [if_pos ⟨htick, hbtn⟩] at hlast
  rw [if_pos htick] at hacc
  have hne : t.acc ≠ 0#2 := by
    rw [hacc]
    intro hz
    exact hbtn (BitVec.or_eq_zero_iff.mp hz).2
  have hage : (t.now - t.last).toNat = 1 := by
    rw [hnow, hlast, BitVec.add_comm, BitVec.add_sub_cancel]
    rfl
  simp [State.quiet, hne, hage, step_keeps_cfg h]

/-! The manual action (R117) -/

/-- Where a read fires, the row is the manual action. -/
theorem Row.manual_of_quiet {s u : State} (hagree : s.PathsAgree) (hctl : s.ctl = .idle)
    (hquiet : s.quiet = true) (h : Row s u) : s.lowered.manual s.acc = .next u := by
  have hseq : s.seq = .idle := seq_idle_of_ctl hagree (by simp [hctl]) (by simp [hctl])
  have hlisten : ¬ s.Listening := by
    rintro (⟨-, hq⟩ | hc)
    · rw [hquiet] at hq
      cases hq
    · rw [hctl] at hc
      cases hc
  cases h with
  | manual _ _ hman => exact hman
  | word hl | noWord hl => exact absurd hl hlisten
  | hold hb | count hb | second hb | ack hb | done hb =>
    rw [hseq] at hb
    cases hb
  | take hc | offer hc =>
    rw [hctl] at hc
    cases hc

theorem manualSpec_clear {ev : BitVec 2} (h : ev.getLsbD 1 = true) (s : State) :
    manualSpec ev s = .opn s.cfg.valid :=
  if_pos h

theorem manualSpec_cycle {ev : BitVec 2} (h : ev.getLsbD 1 = false) (s : State) :
    manualSpec ev s = cycleSpec s.cfg s.relay := by
  rw [manualSpec, h, if_neg Bool.false_ne_true]

theorem cycleSpec_bbm {c : Config} (h : c.cyclePolicy = .bbm) (r : Mask) :
    cycleSpec c r = .setBbm (c.cycleNext r) := by
  rw [cycleSpec, h]

theorem cycleSpec_mbb {c : Config} (h : c.cyclePolicy = .mbb) (r : Mask) :
    cycleSpec c r = .setMbb (c.cycleNext r) := by
  rw [cycleSpec, h]

theorem and_not_and_not (a b : Mask) : a &&& ~~~(a &&& ~~~b) = a &&& b := by
  refine BitVec.eq_of_getLsbD_eq fun k hk => ?_
  simp only [BitVec.getLsbD_and, BitVec.getLsbD_not, hk, decide_true, Bool.true_and]
  cases a.getLsbD k <;> simp

/-- Opening every channel opens all that a cut relay state has closed. -/
theorem and_not_valid {c : Config} {r : Mask} (h : c.cut r = r) : r &&& ~~~c.valid = 0#32 := by
  rw [← h]
  simp [Config.cut, BitVec.and_assoc]

/-- The step in which a read fires, as far as the rows of R119 see it. -/
theorem manual_step {s : State} (hs : s.Sound) (hctl : s.ctl = .idle) (hquiet : s.quiet = true)
    (hrst : s.input.rst = false) :
    ∃ t u, step s = .next t ∧ s.lowered.rbStart (manualSpec s.acc s) = .next u ∧
      t.block = { u with ctl := .man, mev := s.acc }.block ∧ t.mevStb = true := by
  obtain ⟨t, h⟩ := soundStatesAlwaysStep s hs
  obtain ⟨-, -, v, a, hrow, rfl⟩ := step_row h hrst
  obtain ⟨-, u, hu, rfl⟩ := manual_next (hrow.manual_of_quiet hs.2.1.1 hctl hquiet)
  exact ⟨_, u, h, hu, endStep_block .., endStep_mevStb ..⟩

/-- Settles O40: the fired event set's sequence starts, and a start writes the relay bank alone. -/
theorem manualActionGoesFirst : Obligations.ManualActionGoesFirst := by
  intro s hs hctl hquiet hrst
  refine ⟨by simp [State.cmdReady, hctl, hquiet], ?_⟩
  obtain ⟨⟨-, -, ⟨-, hop⟩, ⟨-, hrel⟩, -⟩, -, ⟨hcut, -⟩, -⟩ := id hs
  obtain ⟨t, u, hstep, hu, hblock, hstb⟩ := manual_step hs hctl hquiet hrst
  obtain ⟨-, rfl⟩ := rbStart_next hu
  simp only [State.block, State.mk.injEq, State.lowered] at hblock
  obtain ⟨hrelay, -, -, -, hseq, hdly, hp2v, hp2k, hp2m, hc, ho, he, hn, ha, hv, hq, hb, hi, hm,
    -⟩ := hblock
  refine ⟨t, hstep, hc, ?_, hm, hstb, ?_, ?_, ?_, ?_, ?_, ?_, ?_, ?_, fun hbit => ?_,
    fun hbit hpol => ?_, fun hbit hpol => ?_⟩
  case refine_10 =>
    rw [manualSpec_clear hbit] at hrelay hdly hp2v
    rw [hrelay, hdly, hp2v]
    simp [SeqSpec.first, SeqSpec.second, and_not_valid hcut, delay_toNat hrel]
  case refine_11 =>
    rw [manualSpec_cycle hbit, cycleSpec_bbm hpol] at hrelay hdly hp2v hp2k hp2m
    rw [hrelay, hdly, hp2v, hp2k, hp2m]
    simp [SeqSpec.first, SeqSpec.second, and_not_and_not, delay_toNat hrel]
  case refine_12 =>
    rw [manualSpec_cycle hbit, cycleSpec_mbb hpol] at hrelay hdly hp2v hp2k hp2m
    rw [hrelay, hdly, hp2v, hp2k, hp2m]
    simp [SeqSpec.first, SeqSpec.second, delay_toNat hop]
  all_goals simp [*]

end Sys2Proof.Machine

/-! Runs under a list of inputs: sequences (R75 to R84), manual actions (R117) and the debounce
window (R87, R91). -/

namespace Sys2Proof

/-! Lists of inputs -/

@[simp] theorem ticks_nil : ticks [] = 0 := rfl

@[simp] theorem ticks_append (l m : List Inputs) : ticks (l ++ m) = ticks l + ticks m := by
  simp [ticks]

@[simp] theorem ticks_singleton (I : Inputs) : ticks [I] = if I.tick then 1 else 0 := by
  cases h : I.tick <;> simp [ticks, h]

@[simp] theorem noReset_append (l m : List Inputs) :
    noReset (l ++ m) = true ↔ noReset l = true ∧ noReset m = true := by
  simp [noReset]

theorem noReset_cons {I : Inputs} {l : List Inputs} :
    noReset (I :: l) = true ↔ I.rst = false ∧ noReset l = true := by
  simp [noReset]

theorem noReset_singleton {I : Inputs} : noReset [I] = true ↔ I.rst = false := by
  simp [noReset]

/-- A list with a last step is the steps before it and that step. -/
theorem eq_append_of_getLast? {l : List Inputs} {J : Inputs} (h : l.getLast? = some J) :
    ∃ m, l = m ++ [J] := by
  obtain ⟨m, rfl⟩ := List.getLast?_eq_some_iff.mp h
  exact ⟨m, rfl⟩

/-- A wait ends with its last tick. -/
theorem Waits.exists_last {k : Nat} {l : List Inputs} (h : Waits k l) :
    ∃ m J, l = m ++ [J] ∧ ticks m + 1 = k ∧ J.tick = true := by
  obtain ⟨hk, -, J, hJ, htick⟩ := h
  obtain ⟨m, rfl⟩ := eq_append_of_getLast? hJ
  refine ⟨m, J, rfl, ?_, htick⟩
  simpa [htick] using hk

/-- A list with `k` ticks or more has an initial part that waits for `k` ticks. -/
theorem exists_waits_initial {k : Nat} {l : List Inputs} (hk : 1 ≤ k) (h : k ≤ ticks l)
    (hr : noReset l = true) : ∃ m w, l = m ++ w ∧ Waits k m := by
  induction l using List.reverseRecOn with
  | nil =>
    rw [ticks_nil] at h
    omega
  | append_singleton l J ih =>
    obtain ⟨hrl, hrJ⟩ := (noReset_append l [J]).mp hr
    by_cases hkl : k ≤ ticks l
    · obtain ⟨m, w, rfl, hw⟩ := ih hkl hrl
      exact ⟨m, w ++ [J], List.append_assoc .., hw⟩
    · rw [ticks_append, ticks_singleton] at h
      have htick : J.tick = true := by
        by_contra hn
        rw [if_neg hn] at h
        exact hkl h
      rw [if_pos htick] at h
      refine ⟨l ++ [J], [], (List.append_nil _).symm, ?_, hr, J, by simp, htick⟩
      rw [ticks_append, ticks_singleton, if_pos htick]
      omega

/-- A wait for two delays is a wait for the first and a wait for the second. -/
theorem Waits.exists_split {a b : Nat} {l : List Inputs} (ha : 1 ≤ a) (hb : 1 ≤ b)
    (h : Waits (a + b) l) : ∃ m w, l = m ++ w ∧ Waits a m ∧ Waits b w := by
  obtain ⟨hk, hr, J, hJ, htick⟩ := h
  obtain ⟨m, w, rfl, hm⟩ := exists_waits_initial ha (by omega) hr
  have hw : ticks w = b := by
    rw [ticks_append, hm.1] at hk
    omega
  have hne : w ≠ [] := by
    rintro rfl
    rw [ticks_nil] at hw
    omega
  refine ⟨m, w, rfl, hm, hw, ((noReset_append m w).mp hr).2, J, ?_, htick⟩
  rwa [List.getLast?_append_of_ne_nil m hne] at hJ

namespace Machine

/-! Runs -/

/-- From `s` the inputs `l` come next, and the steps under them lead to the sound state `z`. -/
structure RunsThrough (l : List Inputs) (s z : State) : Prop where
  run : run l.length s = .next z
  sound : z.Sound
  inputs : s.inputs = l ++ z.inputs
  cfg : z.cfg = s.cfg

theorem RunsThrough.refl {s : State} (h : s.Sound) : RunsThrough [] s s :=
  ⟨rfl, h, rfl, rfl⟩

theorem RunsThrough.append {l m : List Inputs} {s y z : State} (h : RunsThrough l s y)
    (h' : RunsThrough m y z) : RunsThrough (l ++ m) s z where
  run := by
    rw [List.length_append, run_add h.run]
    exact h'.run
  sound := h'.sound
  inputs := by rw [h.inputs, h'.inputs, List.append_assoc]
  cfg := h'.cfg.trans h.cfg

/-- What is left of the inputs after a run. -/
theorem RunsThrough.rest {l rest : List Inputs} {s z : State} (h : RunsThrough l s z)
    (hin : s.inputs = l ++ rest) : z.inputs = rest :=
  List.append_cancel_left (h.inputs.symm.trans hin)

theorem Row.inputs {s u : State} (hs : s.Bounded) (h : Row s u) : u.inputs = s.inputs := by
  cases h with
  | manual hctl hquiet hman =>
    obtain ⟨-, v, hv, rfl⟩ := manual_next hman
    obtain ⟨-, rfl⟩ := rbStart_next hv
    simp [State.lowered]
  | word hlisten hvalid hword =>
    obtain ⟨r, hr, -, ht⟩ := Row.wordTaken hs hlisten hvalid hword
    have hin : r.inputs = s.inputs := by
      rw [hr]
      rfl
    cases ht with
    | more => exact hin
    | last _ hend =>
      cases hend with
      | answer => exact hin
      | start hu =>
        obtain ⟨-, rfl⟩ := rbStart_next hu
        simpa using hin
  | second => simp [State.lowered]
  | take => simp [State.lowered]
  | noWord | hold | count | ack | done | offer => rfl

/-- A step with the input `I` at the head of the inputs. -/
theorem runsThrough_step {s t : State} {I : Inputs} {rest : List Inputs} (hs : s.Sound)
    (hin : s.inputs = I :: rest) (hrst : I.rst = false) (h : step s = .next t) :
    RunsThrough [I] s t := by
  have hI : s.input = I := State.input_cons s I rest hin
  obtain ⟨hb, -, u, a, hrow, rfl⟩ := step_row h (by rw [hI]; exact hrst)
  refine ⟨run_one h, stepKeepsSoundness s _ hs h, ?_, step_keeps_cfg h⟩
  rw [endStep_inputs, hrow.inputs hb, hin]
  rfl

theorem exists_runsThrough_step {s : State} {I : Inputs} {rest : List Inputs} (hs : s.Sound)
    (hin : s.inputs = I :: rest) (hrst : I.rst = false) :
    ∃ t, step s = .next t ∧ RunsThrough [I] s t := by
  obtain ⟨t, h⟩ := soundStatesAlwaysStep s hs
  exact ⟨t, h, runsThrough_step hs hin hrst h⟩

/-- The induction over a run: what every step keeps, with the inputs so far, holds at the end. -/
theorem exists_runsThrough {P : List Inputs → State → Prop}
    (hstep : ∀ (m : List Inputs) (I : Inputs) (y t : State), y.Sound → P m y → y.input = I →
      I.rst = false → step y = .next t → P (m ++ [I]) t)
    {l rest : List Inputs} {s : State} (hs : s.Sound) (h0 : P [] s) (hin : s.inputs = l ++ rest)
    (hr : noReset l = true) : ∃ z, RunsThrough l s z ∧ P l z := by
  induction l using List.reverseRecOn generalizing rest with
  | nil => exact ⟨s, .refl hs, h0⟩
  | append_singleton l J ih =>
    obtain ⟨hrl, hrJ⟩ := (noReset_append l [J]).mp hr
    obtain ⟨y, hy, hP⟩ := ih (rest := J :: rest) (by simp [hin]) hrl
    have hyin : y.inputs = J :: rest := hy.rest (by simp [hin])
    obtain ⟨t, hstep', ht⟩ := exists_runsThrough_step hy.sound hyin (noReset_singleton.mp hrJ)
    exact ⟨t, hy.append ht, hstep l J y t hy.sound hP (State.input_cons y J rest hyin)
      (noReset_singleton.mp hrJ) hstep'⟩

/-! Phases (R75) -/

/-- The rows of a step in which a phase runs. -/
theorem Row.phase {s u : State} (hagree : s.PathsAgree) (hseq : s.seq = .busy) (h : Row s u) :
    (s.input.tick = false ∧ u = s.lowered) ∨
    (s.input.tick = true ∧ 1 < s.dly.toNat ∧ u = { s.lowered with dly := s.dly - 1#16 }) ∨
    (s.input.tick = true ∧ s.dly = 1#16 ∧ s.p2Valid = true ∧
      u = { s.lowered.phaseWrite s.p2Kind s.p2Mask with p2Valid := false }) ∨
    (s.input.tick = true ∧ s.dly = 1#16 ∧ s.p2Valid = false ∧ s.ctl = .seq ∧
      u = { s.lowered with seq := .idle, dly := 0#16 }.respond ackRsp) ∨
    (s.input.tick = true ∧ s.dly = 1#16 ∧ s.p2Valid = false ∧ s.ctl = .man ∧
      u = { s.lowered with seq := .idle, dly := 0#16, ctl := .idle }) := by
  have hctl := hagree.mp hseq
  cases h with
  | manual hc =>
    simp [hc] at hctl
  | word hl | noWord hl =>
    rw [seq_idle_of_listening hagree hl] at hseq
    cases hseq
  | hold _ htick => exact .inl ⟨htick, rfl⟩
  | count _ htick hdly => exact .inr (.inl ⟨htick, hdly, rfl⟩)
  | second _ htick hdly hp2 => exact .inr (.inr (.inl ⟨htick, hdly, hp2, rfl⟩))
  | ack _ hc htick hdly hp2 => exact .inr (.inr (.inr (.inl ⟨htick, hdly, hp2, hc, rfl⟩)))
  | done _ hc htick hdly hp2 => exact .inr (.inr (.inr (.inr ⟨htick, hdly, hp2, hc, rfl⟩)))
  | take hc | offer hc => simp [hc] at hctl

/-- Before its last tick a phase that `s` is in does nothing but count: `y` is `s` after the inputs
`m`. -/
def PhaseCounts (s : State) (m : List Inputs) (y : State) : Prop :=
  ticks m < s.dly.toNat →
    y.block = { s with dly := y.dly }.block ∧ y.dly.toNat = s.dly.toNat - ticks m

theorem toNat_sub_one {d : BitVec 16} (h : 1 < d.toNat) : (d - 1#16).toNat = d.toNat - 1 := by
  rw [BitVec.toNat_sub_of_le (by rw [BitVec.le_def]; simp; omega)]
  rfl

theorem PhaseCounts.step {s : State} (hseq : s.seq = .busy) {m : List Inputs} {I : Inputs}
    {y t : State} (h : PhaseCounts s m y) (hI : y.input = I) (hrst : I.rst = false)
    (hstep : step y = .next t) : PhaseCounts s (m ++ [I]) t := by
  intro hm
  rw [ticks_append, ticks_singleton] at hm ⊢
  obtain ⟨hblock, hdly⟩ := h (by omega)
  obtain ⟨-, ⟨hagree, -⟩, u, a, hrow, rfl⟩ := step_row hstep (by rwa [hI])
  have hend := endStep_block y a u
  rw [eq_of_block State.dly hend, hend]
  have hlast : I.tick = true → y.dly ≠ 1#16 := by
    intro htick hone
    rw [hone] at hdly
    rw [if_pos htick] at hm
    simp at hdly
    omega
  obtain ⟨htick, rfl⟩ | ⟨htick, hgt, rfl⟩ | ⟨htick, hone, -⟩ | ⟨htick, hone, -⟩ |
      ⟨htick, hone, -⟩ :=
    hrow.phase hagree ((eq_of_block State.seq hblock).trans hseq) <;> rw [hI] at htick
  · exact ⟨hblock, by simpa [State.lowered, htick] using hdly⟩
  · refine ⟨?_, ?_⟩
    · show ({ y.block with dly := y.dly - 1#16 } : State) = _
      rw [hblock]
      rfl
    · show (y.dly - 1#16).toNat = _
      rw [toNat_sub_one hgt, hdly, if_pos htick]
      omega
  all_goals exact absurd hone (hlast htick)

theorem phase_counts {s : State} {l rest : List Inputs} (hs : s.Sound) (hseq : s.seq = .busy)
    (hin : s.inputs = l ++ rest) (hr : noReset l = true) (hl : ticks l < s.dly.toNat) :
    ∃ z, RunsThrough l s z ∧ z.block = { s with dly := z.dly }.block ∧
      z.dly.toNat = s.dly.toNat - ticks l := by
  obtain ⟨z, hz, hP⟩ := exists_runsThrough (P := PhaseCounts s) (fun _ _ _ _ _ hP hI hrst h =>
    hP.step hseq hI hrst h) hs (fun _ => ⟨rfl, rfl⟩) hin hr
  exact ⟨z, hz, hP hl⟩

/-- The state in which a first phase has ended and the second one has started (R75). -/
def State.secondPhase (s : State) : State :=
  { s.phaseWrite s.p2Kind s.p2Mask with p2Valid := false }

/-- A command's last phase has ended (R75, R119). -/
def State.acked (s : State) : State :=
  { s with seq := .idle, dly := 0#16 }.respond ackRsp

/-- A manual action's last phase has ended (R75, R119). -/
def State.returned (s : State) : State :=
  { s with seq := .idle, dly := 0#16, ctl := .idle }

/-- The second phase does not read the delay of the first. -/
theorem secondPhase_block {s y : State} {d : BitVec 16} (h : y.block = { s with dly := d }.block) :
    y.lowered.secondPhase.block = s.secondPhase.block := by
  have hy : y.lowered.secondPhase.block = y.block.secondPhase.block := by
    simp only [State.secondPhase, State.phaseWrite, State.lowered, State.block]
    cases y.p2Kind <;> rfl
  rw [hy, h]
  simp only [State.secondPhase, State.phaseWrite, State.block]
  cases s.p2Kind <;> rfl

/-- With its last tick a phase ends. -/
theorem phase_ends {s : State} {l rest : List Inputs} (hs : s.Sound) (hseq : s.seq = .busy)
    (hin : s.inputs = l ++ rest) (hw : Waits s.dly.toNat l) :
    ∃ z, RunsThrough l s z ∧ (s.p2Valid = true → z.block = s.secondPhase.block) ∧
      (s.p2Valid = false → s.ctl = .seq → z.block = s.acked.block) ∧
      (s.p2Valid = false → s.ctl = .man → z.block = s.returned.block) := by
  obtain ⟨m, J, rfl, hm, hJ⟩ := hw.exists_last
  obtain ⟨-, hr, -⟩ := hw
  obtain ⟨hrm, hrJ⟩ := (noReset_append m [J]).mp hr
  have hrJ := noReset_singleton.mp hrJ
  have hin' : s.inputs = m ++ (J :: rest) := by simp [hin]
  obtain ⟨y, hy, hblock, hdly⟩ := phase_counts hs hseq hin' hrm (by omega)
  have hyJ : y.input = J := State.input_cons y J rest (hy.rest hin')
  obtain ⟨t, hstep, ht⟩ := exists_runsThrough_step hy.sound (hy.rest hin') hrJ
  refine ⟨t, hy.append ht, ?_⟩
  obtain ⟨-, ⟨hagree, -⟩, u, a, hrow, rfl⟩ := step_row hstep (by rwa [hyJ])
  rw [endStep_block y a u]
  have hctl : y.ctl = s.ctl := eq_of_block State.ctl hblock
  have hp2 : y.p2Valid = s.p2Valid := eq_of_block State.p2Valid hblock
  have hphase := hrow.phase hagree ((eq_of_block State.seq hblock).trans hseq)
  rw [hyJ, hJ, hctl, hp2] at hphase
  obtain ⟨hn, -⟩ | ⟨-, hgt, -⟩ | ⟨-, -, hv, rfl⟩ | ⟨-, -, hv, hc, rfl⟩ | ⟨-, -, hv, hc, rfl⟩ :=
    hphase
  · cases hn
  · omega
  · refine ⟨fun _ => secondPhase_block hblock, ?_, ?_⟩ <;> simp [hv]
  · refine ⟨by simp [hv], fun _ _ => ?_, by simp [hc]⟩
    show y.block.acked = _
    rw [hblock]
    rfl
  · refine ⟨by simp [hv], by simp [hc], fun _ _ => ?_⟩
    show y.block.returned = _
    rw [hblock]
    rfl

/-- Settles O34: a last phase counts its ticks, and ends with the last one. -/
theorem phaseEndsWithItsLastTick : Obligations.PhaseEndsWithItsLastTick := by
  intro s l rest hs hseq hp2 hin hr
  refine ⟨fun hl => ?_, fun hw => ?_⟩
  · obtain ⟨z, hz, hblock, hdly⟩ := phase_counts hs hseq hin hr hl
    exact ⟨z, hz.run, (eq_of_block State.seq hblock).trans hseq, eq_of_block State.ctl hblock,
      eq_of_block State.relay hblock, hdly⟩
  · obtain ⟨z, hz, -, hack, hret⟩ := phase_ends hs hseq hin hw
    have hctl := hs.2.1.1.mp hseq
    obtain hc | hc := hctl
    · have hblock := hack hp2 hc
      exact ⟨z, hz.run, eq_of_block State.seq hblock, eq_of_block State.dly hblock,
        eq_of_block State.relay hblock, fun _ => ⟨eq_of_block State.ctl hblock,
          eq_of_block State.rbuf hblock, eq_of_block State.ridx hblock⟩, by simp [hc]⟩
    · have hblock := hret hp2 hc
      exact ⟨z, hz.run, eq_of_block State.seq hblock, eq_of_block State.dly hblock,
        eq_of_block State.relay hblock, by simp [hc], fun _ => ⟨eq_of_block State.ctl hblock,
          eq_of_block State.rbuf hblock, eq_of_block State.ridx hblock⟩⟩

/-! Sequences (R74 to R80) -/

/-- The relays after a phase write (R73). -/
def Kind.write : Kind → Mask → Mask → Mask
  | .opn, r, m => r &&& ~~~m
  | .cls, r, m => r ||| m

/-- The ticks a phase waits (R73). -/
def Kind.delay (c : Config) : Kind → Nat
  | .opn => c.tRel
  | .cls => c.tOp

theorem phaseWrite_relay (k : Kind) (m : Mask) (s : State) :
    (s.phaseWrite k m).relay = k.write s.relay m := by
  cases k <;> rfl

theorem phaseWrite_dly (k : Kind) (m : Mask) (s : State) :
    (s.phaseWrite k m).dly = BitVec.ofNat 16 (k.delay s.cfg) := by
  cases k <;> rfl

theorem Kind.delay_range {c : Config} (h : c.Legal) (k : Kind) :
    1 ≤ k.delay c ∧ (BitVec.ofNat 16 (k.delay c)).toNat = k.delay c := by
  obtain ⟨-, -, ⟨ho1, ho2⟩, ⟨hr1, hr2⟩, -⟩ := h
  cases k with
  | opn => exact ⟨hr1, delay_toNat hr2⟩
  | cls => exact ⟨ho1, delay_toNat ho2⟩

/-- The registers of a sequence that has just started (R74). -/
theorem HoldsSequence.registers {spec : SeqSpec} {r : Mask} {s : State} (h : HoldsSequence spec r s)
    (hl : s.cfg.Legal) :
    s.seq = .busy ∧ s.relay = (spec.first s.cfg r).1.write r (spec.first s.cfg r).2 ∧
      s.dly.toNat = (spec.first s.cfg r).1.delay s.cfg ∧
      s.p2Valid = (spec.second s.cfg r).isSome ∧
      ∀ k m, spec.second s.cfg r = some (k, m) → s.p2Kind = k ∧ s.p2Mask = m := by
  obtain ⟨t, u, -, hrt, hct, hu, hrelay, hdly, hseq, hp2, hkm⟩ := h
  obtain ⟨-, rfl⟩ := rbStart_next hu
  rw [hrt, hct] at hrelay hdly hp2 hkm
  refine ⟨hseq.trans (by simp), ?_, ?_, ?_, fun k m hk => ?_⟩
  · rw [hrelay, State.holdSecond_relay, phaseWrite_relay, hrt]
  · rw [hdly, State.holdSecond_dly, phaseWrite_dly, hct, (Kind.delay_range hl _).2]
  · rw [hp2]
    rcases spec.second s.cfg r with _ | ⟨k, m⟩ <;> rfl
  · rw [hk] at hp2 hkm
    exact hkm hp2

/-- A state in which a sequence that a state `s` was in has ended (R75, R119). -/
def SequenceEnded (s z : State) : Prop :=
  z.seq = .idle ∧ (s.ctl = .seq → z.ctl = .rsp ∧ z.rbuf = ackRsp ∧ z.ridx = 0#16) ∧
    (s.ctl = .man → z.ctl = .idle ∧ z.rbuf = s.rbuf)

theorem last_phase_ends {s : State} {l rest : List Inputs} (hs : s.Sound) (hseq : s.seq = .busy)
    (hp2 : s.p2Valid = false) (hin : s.inputs = l ++ rest) (hw : Waits s.dly.toNat l) :
    ∃ z, RunsThrough l s z ∧ SequenceEnded s z ∧ z.relay = s.relay := by
  obtain ⟨z, hz, -, hack, hret⟩ := phase_ends hs hseq hin hw
  refine ⟨z, hz, ?_⟩
  obtain hc | hc := hs.2.1.1.mp hseq
  · have hblock := hack hp2 hc
    exact ⟨⟨eq_of_block State.seq hblock, fun _ => ⟨eq_of_block State.ctl hblock,
      eq_of_block State.rbuf hblock, eq_of_block State.ridx hblock⟩, by simp [hc]⟩,
      eq_of_block State.relay hblock⟩
  · have hblock := hret hp2 hc
    exact ⟨⟨eq_of_block State.seq hblock, by simp [hc], fun _ => ⟨eq_of_block State.ctl hblock,
      eq_of_block State.rbuf hblock⟩⟩, eq_of_block State.relay hblock⟩

/-- What the second phase of `s` starts from. -/
theorem secondPhase_registers {s y : State} (hl : s.cfg.Legal)
    (h : y.block = s.secondPhase.block) :
    y.seq = .busy ∧ y.p2Valid = false ∧ y.ctl = s.ctl ∧ y.rbuf = s.rbuf ∧
      y.relay = s.p2Kind.write s.relay s.p2Mask ∧ y.dly.toNat = s.p2Kind.delay s.cfg := by
  refine ⟨(eq_of_block State.seq h).trans (State.phaseWrite_seq ..), eq_of_block State.p2Valid h,
    (eq_of_block State.ctl h).trans (State.phaseWrite_ctl ..),
    (eq_of_block State.rbuf h).trans (State.phaseWrite_rbuf ..),
    (eq_of_block State.relay h).trans (phaseWrite_relay ..), ?_⟩
  rw [(eq_of_block State.dly h).trans (phaseWrite_dly s.p2Kind s.p2Mask s),
    (Kind.delay_range hl _).2]

theorem two_phases_end {s : State} {l rest : List Inputs} (hs : s.Sound) (hseq : s.seq = .busy)
    (hp2 : s.p2Valid = true) (hin : s.inputs = l ++ rest)
    (hw : Waits (s.dly.toNat + s.p2Kind.delay s.cfg) l) :
    ∃ z, RunsThrough l s z ∧ SequenceEnded s z ∧ z.relay = s.p2Kind.write s.relay s.p2Mask := by
  obtain ⟨m, w, rfl, hwm, hww⟩ := hw.exists_split (hs.2.1.2.1 hseq).1 (Kind.delay_range hs.1 _).1
  have hin' : s.inputs = m ++ (w ++ rest) := by rw [hin, List.append_assoc]
  obtain ⟨y, hy, hsecond, -⟩ := phase_ends hs hseq hin' hwm
  obtain ⟨hyseq, hyp2, hyctl, hyrbuf, hyrelay, hydly⟩ := secondPhase_registers hs.1 (hsecond hp2)
  obtain ⟨z, hz, hended, hrelay⟩ :=
    last_phase_ends hy.sound hyseq hyp2 (hy.rest hin') (by rwa [hydly])
  rw [SequenceEnded, hyctl, hyrbuf] at hended
  exact ⟨z, hy.append hz, hended, hrelay.trans hyrelay⟩

theorem two_phases_wait {s : State} {l rest : List Inputs} (hs : s.Sound) (hseq : s.seq = .busy)
    (hp2 : s.p2Valid = true) (hin : s.inputs = l ++ rest) (hr : noReset l = true)
    (hl : ticks l < s.dly.toNat + s.p2Kind.delay s.cfg) :
    ∃ z, RunsThrough l s z ∧ z.ctl = s.ctl ∧ z.seq = .busy ∧
      z.relay = if ticks l < s.dly.toNat then s.relay else s.p2Kind.write s.relay s.p2Mask := by
  by_cases hfirst : ticks l < s.dly.toNat
  · obtain ⟨z, hz, hblock, -⟩ := phase_counts hs hseq hin hr hfirst
    rw [if_pos hfirst]
    exact ⟨z, hz, eq_of_block State.ctl hblock, (eq_of_block State.seq hblock).trans hseq,
      eq_of_block State.relay hblock⟩
  · rw [if_neg hfirst]
    obtain ⟨m, w, rfl, hwm⟩ := exists_waits_initial (hs.2.1.2.1 hseq).1 (by omega) hr
    have hin' : s.inputs = m ++ (w ++ rest) := by rw [hin, List.append_assoc]
    obtain ⟨y, hy, hsecond, -⟩ := phase_ends hs hseq hin' hwm
    obtain ⟨hyseq, -, hyctl, -, hyrelay, hydly⟩ := secondPhase_registers hs.1 (hsecond hp2)
    have hticks : ticks w < y.dly.toNat := by
      rw [ticks_append, hwm.1] at hl
      omega
    obtain ⟨z, hz, hblock, -⟩ :=
      phase_counts hy.sound hyseq (hy.rest hin') ((noReset_append m w).mp hr).2 hticks
    exact ⟨z, hy.append hz, (eq_of_block State.ctl hblock).trans hyctl,
      (eq_of_block State.seq hblock).trans hyseq, (eq_of_block State.relay hblock).trans hyrelay⟩

/-- The ticks a sequence waits (R76). -/
def SeqSpec.delay (c : Config) : SeqSpec → Nat
  | .opn _ => c.tRel
  | .cls _ => c.tOp
  | .setBbm _ => c.tRel + c.tOp
  | .setMbb _ => c.tOp + c.tRel

/-- The relay state a sequence that starts from `r` leaves (R77 to R80). -/
def SeqSpec.target (c : Config) (r : Mask) : SeqSpec → Mask
  | .opn m => r &&& ~~~(c.cut m)
  | .cls m => r ||| c.cut m
  | .setBbm t => c.cut t
  | .setMbb t => c.cut t

theorem or_and_not_and_not (a b : Mask) : (a ||| b) &&& ~~~(a &&& ~~~b) = b := by
  refine BitVec.eq_of_getLsbD_eq fun k hk => ?_
  simp only [BitVec.getLsbD_and, BitVec.getLsbD_or, BitVec.getLsbD_not, hk, decide_true,
    Bool.true_and]
  cases a.getLsbD k <;> simp

theorem and_or_self (a b : Mask) : (a &&& b) ||| b = b := by
  refine BitVec.eq_of_getLsbD_eq fun k hk => ?_
  simp only [BitVec.getLsbD_and, BitVec.getLsbD_or]
  cases a.getLsbD k <;> simp

/-- A break-before-make set opens to `r & t'` and then closes to `t'` (R79). -/
theorem bbm_writes (r t : Mask) :
    Kind.write .opn r (r &&& ~~~t) = r &&& t ∧ Kind.write .cls (r &&& t) t = t :=
  ⟨and_not_and_not r t, and_or_self r t⟩

/-- A make-before-break set closes to `r | t'` and then opens to `t'` (R80). -/
theorem mbb_writes (r t : Mask) :
    Kind.write .cls r t = r ||| t ∧ Kind.write .opn (r ||| t) (r &&& ~~~t) = t :=
  ⟨rfl, or_and_not_and_not r t⟩

/-- A sequence ends with the last of its ticks, in its target. -/
theorem sequence_ends {s : State} {spec : SeqSpec} {r : Mask} {l rest : List Inputs} (hs : s.Sound)
    (h : HoldsSequence spec r s) (hin : s.inputs = l ++ rest) (hw : Waits (spec.delay s.cfg) l) :
    ∃ z, RunsThrough l s z ∧ SequenceEnded s z ∧ z.relay = spec.target s.cfg r := by
  obtain ⟨hseq, hrelay, hdly, hp2, hkm⟩ := h.registers hs.1
  cases spec with
  | opn m | cls m =>
    obtain ⟨z, hz, hended, hz'⟩ := last_phase_ends hs hseq hp2 hin (by rw [hdly]; exact hw)
    exact ⟨z, hz, hended, hz'.trans hrelay⟩
  | setBbm t =>
    obtain ⟨hk, hm⟩ := hkm _ _ rfl
    obtain ⟨z, hz, hended, hz'⟩ := two_phases_end hs hseq hp2 hin (by rw [hdly, hk]; exact hw)
    obtain ⟨h1, h2⟩ := bbm_writes r (s.cfg.cut t)
    rw [hk, hm, hrelay] at hz'
    exact ⟨z, hz, hended, hz'.trans ((congrArg (Kind.write .cls · _) h1).trans h2)⟩
  | setMbb t =>
    obtain ⟨hk, hm⟩ := hkm _ _ rfl
    obtain ⟨z, hz, hended, hz'⟩ := two_phases_end hs hseq hp2 hin (by rw [hdly, hk]; exact hw)
    obtain ⟨-, h2⟩ := mbb_writes r (s.cfg.cut t)
    rw [hk, hm, hrelay] at hz'
    exact ⟨z, hz, hended, hz'.trans h2⟩

/-- Before the last of its ticks a sequence is under way. -/
theorem sequence_waits {s : State} {spec : SeqSpec} {r : Mask} {l rest : List Inputs}
    (hs : s.Sound) (h : HoldsSequence spec r s) (hin : s.inputs = l ++ rest)
    (hr : noReset l = true) (hl : ticks l < spec.delay s.cfg) :
    ∃ z, RunsThrough l s z ∧ z.ctl = s.ctl ∧ z.seq = .busy := by
  obtain ⟨hseq, -, hdly, hp2, hkm⟩ := h.registers hs.1
  cases spec with
  | opn m | cls m =>
    obtain ⟨z, hz, hblock, -⟩ := phase_counts hs hseq hin hr (by rw [hdly]; exact hl)
    exact ⟨z, hz, eq_of_block State.ctl hblock, (eq_of_block State.seq hblock).trans hseq⟩
  | setBbm t | setMbb t =>
    obtain ⟨hk, -⟩ := hkm _ _ rfl
    obtain ⟨z, hz, hctl, hbusy, -⟩ :=
      two_phases_wait hs hseq hp2 hin hr (by rw [hdly, hk]; exact hl)
    exact ⟨z, hz, hctl, hbusy⟩

theorem and_and_and_not (a b : Mask) : a &&& b &&& (a &&& ~~~b) = 0#32 := by
  refine BitVec.eq_of_getLsbD_eq fun k hk => ?_
  simp only [BitVec.getLsbD_and, BitVec.getLsbD_not, hk, decide_true, Bool.true_and]
  cases b.getLsbD k <;> simp

theorem and_and_not_self (a b : Mask) : b &&& (a &&& ~~~b) = 0#32 := by
  refine BitVec.eq_of_getLsbD_eq fun k hk => ?_
  simp only [BitVec.getLsbD_and, BitVec.getLsbD_not, hk, decide_true, Bool.true_and]
  cases b.getLsbD k <;> simp

/-- Settles O32: the channels that are to open are open in both phases. -/
theorem breakBeforeMakeStates : Obligations.BreakBeforeMakeStates := by
  intro s r t l rest hs h hin hr hl
  obtain ⟨hseq, hrelay, hdly, hp2, hkm⟩ := h.registers hs.1
  obtain ⟨hk, hm⟩ := hkm _ _ rfl
  obtain ⟨z, hz, hctl, hbusy, hz'⟩ :=
    two_phases_wait hs hseq hp2 hin hr (by rw [hdly, hk]; exact hl)
  obtain ⟨h1, h2⟩ := bbm_writes r (s.cfg.cut t)
  have hrelay : s.relay = r &&& s.cfg.cut t := hrelay.trans h1
  rw [hk, hm, hrelay, h2, hdly] at hz'
  refine ⟨z, hz.run, hctl, hbusy, hz', .inl ?_⟩
  rw [hz']
  split
  · exact and_and_and_not r _
  · exact and_and_not_self r _

theorem or_and_and (a b : Mask) : (a ||| b) &&& (a &&& b) = a &&& b := by
  refine BitVec.eq_of_getLsbD_eq fun k hk => ?_
  simp only [BitVec.getLsbD_and, BitVec.getLsbD_or]
  cases a.getLsbD k <;> simp

/-- Settles O33: the channels of both states are closed in both phases. -/
theorem makeBeforeBreakStates : Obligations.MakeBeforeBreakStates := by
  intro s r t l rest hs h hin hr hl
  obtain ⟨hseq, hrelay, hdly, hp2, hkm⟩ := h.registers hs.1
  obtain ⟨hk, hm⟩ := hkm _ _ rfl
  obtain ⟨z, hz, hctl, hbusy, hz'⟩ :=
    two_phases_wait hs hseq hp2 hin hr (by rw [hdly, hk]; exact hl)
  obtain ⟨h1, h2⟩ := mbb_writes r (s.cfg.cut t)
  have hrelay : s.relay = r ||| s.cfg.cut t := hrelay.trans h1
  rw [hk, hm, hrelay, h2, hdly] at hz'
  refine ⟨z, hz.run, hctl, hbusy, hz', ?_⟩
  rw [hz']
  split
  · exact or_and_and r _
  · rw [BitVec.and_comm, BitVec.and_assoc, BitVec.and_self]

/-! The manual action (R117) -/

/-- What a start of a state like `s` leaves is a sequence just started. -/
theorem holdsSequence_of_rbStart {s u z : State} {spec : SeqSpec} (h : s.rbStart spec = .next u)
    {c : Ctl} {ev : BitVec 2} (hz : z.block = { u with ctl := c, mev := ev }.block) :
    HoldsSequence spec s.relay z :=
  ⟨s, u, (rbStart_next h).1, rfl, (rbStart_keeps_cfg h).symm.trans (eq_of_block State.cfg hz).symm,
    h,
    eq_of_block State.relay hz, eq_of_block State.dly hz, eq_of_block State.seq hz,
    eq_of_block State.p2Valid hz,
    fun _ => ⟨eq_of_block State.p2Kind hz, eq_of_block State.p2Mask hz⟩⟩

theorem manualSpec_delay {s : State} {l : List Inputs}
    (h : Waits (if s.acc.getLsbD 1 then s.cfg.tRel else s.cfg.tRel + s.cfg.tOp) l) :
    Waits ((manualSpec s.acc s).delay s.cfg) l := by
  cases hbit : s.acc.getLsbD 1 with
  | true =>
    rw [hbit, if_pos rfl] at h
    rwa [manualSpec_clear hbit]
  | false =>
    rw [hbit, if_neg Bool.false_ne_true] at h
    rw [manualSpec_cycle hbit]
    cases hpol : s.cfg.cyclePolicy with
    | bbm => rwa [cycleSpec_bbm hpol]
    | mbb =>
      rw [cycleSpec_mbb hpol, SeqSpec.delay, Nat.add_comm]
      exact h

theorem manualSpec_target {s : State} (hcut : s.cfg.cut s.relay = s.relay) :
    (manualSpec s.acc s).target s.cfg s.relay =
      if s.acc.getLsbD 1 then 0#32 else s.cfg.cycleNext s.relay := by
  cases hbit : s.acc.getLsbD 1 with
  | true =>
    rw [manualSpec_clear hbit, SeqSpec.target, cut_valid, and_not_valid hcut]
    rfl
  | false =>
    rw [manualSpec_cycle hbit, if_neg Bool.false_ne_true]
    cases hpol : s.cfg.cyclePolicy with
    | bbm => rw [cycleSpec_bbm hpol, SeqSpec.target, cut_cycleNext]
    | mbb => rw [cycleSpec_mbb hpol, SeqSpec.target, cut_cycleNext]

/-- Settles O41: the fired read starts a sequence, and a manual action's sequence ends in C_IDLE. -/
theorem manualActionRunsToIdle : Obligations.ManualActionRunsToIdle := by
  intro s I l rest hs hctl hquiet hrst hin hw
  have hI : s.input = I := State.input_cons s I _ hin
  obtain ⟨t, u, hstep, hu, hblock, -⟩ := manual_step hs hctl hquiet (by rwa [hI])
  have ht := runsThrough_step hs hin hrst hstep
  have hholds : HoldsSequence (manualSpec s.acc s) s.relay t :=
    holdsSequence_of_rbStart (s := s.lowered) hu hblock
  have htin : t.inputs = l ++ rest := ht.rest hin
  have hwait := manualSpec_delay hw
  rw [← ht.cfg] at hwait
  obtain ⟨z, hz, ⟨hseq, -, hman⟩, hrelay⟩ := sequence_ends ht.sound hholds htin hwait
  have htctl : t.ctl = .man := eq_of_block State.ctl hblock
  obtain ⟨hzctl, hzrbuf⟩ := hman htctl
  have htrbuf : t.rbuf = s.rbuf := by
    obtain ⟨-, rfl⟩ := rbStart_next hu
    rw [eq_of_block State.rbuf hblock]
    simp [State.lowered]
  have hrun := (ht.append hz).run
  rw [List.length_append] at hrun
  refine ⟨z, hrun, hzctl, hseq, hzrbuf.trans htrbuf, ?_⟩
  rw [hrelay, ht.cfg, manualSpec_target hs.2.2.1.1]

/-! The debounce window (R87, R91) -/

/-- The ticks since the last asserted sample, modulo 2^32 (R87). -/
def State.age (s : State) : Nat :=
  (s.now - s.last).toNat

theorem quiet_iff {s : State} (hacc : s.acc ≠ 0#2) : s.quiet = true ↔ s.cfg.wDeb < s.age := by
  simp [State.quiet, State.age, hacc]

theorem quiet_eq_false_iff {s : State} (hacc : s.acc ≠ 0#2) :
    s.quiet = false ↔ s.age ≤ s.cfg.wDeb := by
  rw [← Bool.not_eq_true, quiet_iff hacc, Nat.not_lt]

/-- A step of the idle block with no button, no word and nothing to report: the time alone passes.
-/
theorem idle_step {s t : State} {I : Inputs} (hI : s.input = I) (hrst : I.rst = false)
    (hctl : s.ctl = .idle) (hquiet : s.quiet = false) (hbtn : I.btnRaw = 0#2)
    (hvalid : I.cmdValid = false) (hage : s.age + 1 < 2 ^ 32) (h : step s = .next t) :
    t.ctl = .idle ∧ t.acc = s.acc ∧ t.age = s.age + ticks [I] := by
  subst hI
  obtain ⟨hnow, hlast, hacc⟩ := debouncerStep s t h hrst
  obtain ⟨hidle, -⟩ := controlTransitions s t h hrst
  have hfires : s.fires = false := by simp [State.fires, hquiet]
  refine ⟨(hidle hctl).2.1 hquiet hvalid, ?_, ?_⟩
  · rw [hacc, hfires, hbtn]
    simp
  · rw [if_neg (by simp [hbtn])] at hlast
    rw [State.age, hnow, hlast, ticks_singleton]
    cases htick : s.input.tick with
    | false => simp [State.age]
    | true =>
      simp only [if_true]
      rw [add_sub_right_comm, BitVec.toNat_add]
      exact Nat.mod_eq_of_lt hage

/-- Inside the window that starts in `s` the idle block waits: `y` is `s` after the inputs `m`. -/
def WindowWaits (s : State) (m : List Inputs) (y : State) : Prop :=
  (∀ I ∈ m, I.btnRaw = 0#2 ∧ I.cmdValid = false) → ticks m < s.cfg.wDeb →
    y.ctl = .idle ∧ y.acc = s.acc ∧ y.age = 1 + ticks m ∧ y.cfg = s.cfg

theorem WindowWaits.step {s : State} (hacc : s.acc ≠ 0#2) (hl : s.cfg.Legal) {m : List Inputs}
    {I : Inputs} {y t : State} (h : WindowWaits s m y) (hI : y.input = I) (hrst : I.rst = false)
    (hstep : step y = .next t) : WindowWaits s (m ++ [I]) t := by
  intro hm hlt
  obtain ⟨hmm, hmI⟩ := List.forall_mem_append.mp hm
  obtain ⟨hbtn, hvalid⟩ := hmI I (List.mem_singleton.mpr rfl)
  rw [ticks_append] at hlt ⊢
  obtain ⟨hctl, hyacc, hage, hcfg⟩ := h hmm (by omega)
  have hw : s.cfg.wDeb ≤ 2 ^ 31 - 1 := hl.2.1
  have hquiet : y.quiet = false := by
    rw [quiet_eq_false_iff (by rwa [hyacc]), hage, hcfg]
    omega
  obtain ⟨htctl, htacc, htage⟩ := idle_step hI hrst hctl hquiet hbtn hvalid (by omega) hstep
  exact ⟨htctl, htacc.trans hyacc, by omega, (step_keeps_cfg hstep).trans hcfg⟩

theorem age_of_sampled {s : State} (h : s.now = s.last + 1#32) : s.age = 1 := by
  rw [State.age, h, BitVec.add_comm, BitVec.add_sub_cancel]
  rfl

theorem window_waits {s : State} {l rest : List Inputs} (hs : s.Sound) (hctl : s.ctl = .idle)
    (hacc : s.acc ≠ 0#2) (hnow : s.now = s.last + 1#32) (hin : s.inputs = l ++ rest)
    (hr : noReset l = true) (hl : ∀ I ∈ l, I.btnRaw = 0#2 ∧ I.cmdValid = false)
    (hlt : ticks l < s.cfg.wDeb) :
    ∃ z, RunsThrough l s z ∧ z.ctl = .idle ∧ z.acc = s.acc ∧ z.age = 1 + ticks l := by
  obtain ⟨z, hz, hP⟩ := exists_runsThrough (P := WindowWaits s)
    (fun _ _ _ _ _ hP hI hrst h => hP.step hacc hs.1 hI hrst h) hs
    (fun _ _ => ⟨hctl, rfl, age_of_sampled hnow, rfl⟩) hin hr
  obtain ⟨hzctl, hzacc, hage, -⟩ := hP hl hlt
  exact ⟨z, hz, hzctl, hzacc, hage⟩

/-- After the W_DEB-th quiet tick the window has passed. -/
theorem window_passes {s : State} {l rest : List Inputs} (hs : s.Sound) (hctl : s.ctl = .idle)
    (hacc : s.acc ≠ 0#2) (hnow : s.now = s.last + 1#32) (hin : s.inputs = l ++ rest)
    (hr : noReset l = true) (hl : ∀ I ∈ l, I.btnRaw = 0#2 ∧ I.cmdValid = false)
    (hticks : ticks l = s.cfg.wDeb) (hzero : s.cfg.wDeb = 0 → l = [])
    (hlast : ∀ I, l.getLast? = some I → I.tick = true) :
    ∃ z, RunsThrough l s z ∧ z.ctl = .idle ∧ z.acc = s.acc ∧ z.age = 1 + ticks l := by
  induction l using List.reverseRecOn with
  | nil => exact ⟨s, .refl hs, hctl, rfl, age_of_sampled hnow⟩
  | append_singleton m J =>
    have hJ : J.tick = true := hlast J (by simp)
    have hcount : ticks m + 1 = s.cfg.wDeb := by
      rw [← hticks, ticks_append, ticks_singleton, if_pos hJ]
    obtain ⟨hrm, hrJ⟩ := (noReset_append m [J]).mp hr
    obtain ⟨hlm, hlJ⟩ := List.forall_mem_append.mp hl
    obtain ⟨hbtn, hvalid⟩ := hlJ J (List.mem_singleton.mpr rfl)
    have hin' : s.inputs = m ++ (J :: rest) := by simp [hin]
    obtain ⟨y, hy, hyctl, hyacc, hage⟩ :=
      window_waits hs hctl hacc hnow hin' hrm hlm (by omega)
    have hw : s.cfg.wDeb ≤ 2 ^ 31 - 1 := hs.1.2.1
    have hquiet : y.quiet = false := by
      rw [quiet_eq_false_iff (by rwa [hyacc]), hage, hy.cfg]
      omega
    obtain ⟨t, hstep, ht⟩ :=
      exists_runsThrough_step hy.sound (hy.rest hin') (noReset_singleton.mp hrJ)
    obtain ⟨htctl, htacc, htage⟩ := idle_step (State.input_cons y J rest (hy.rest hin'))
      (noReset_singleton.mp hrJ) hyctl hquiet hbtn hvalid (by omega) hstep
    refine ⟨t, hy.append ht, htctl, htacc.trans hyacc, ?_⟩
    rw [htage, hage, ticks_append, Nat.add_assoc]

/-- Settles O39: the age of the last sample is the number of ticks, and one more. -/
theorem pressIsReportedAfterTheWindow : Obligations.PressIsReportedAfterTheWindow := by
  intro s l rest hs hctl hacc hnow hin hr hl
  refine ⟨fun hlt => ?_, fun hticks hzero hlast => ?_⟩
  · obtain ⟨z, hz, hzctl, hzacc, hage⟩ := window_waits hs hctl hacc hnow hin hr hl hlt
    refine ⟨z, hz.run, hzctl, hzacc, ?_⟩
    rw [quiet_eq_false_iff (by rwa [hzacc]), hage, hz.cfg]
    omega
  · obtain ⟨z, hz, hzctl, hzacc, hage⟩ :=
      window_passes hs hctl hacc hnow hin hr hl hticks hzero hlast
    have hquiet : z.quiet = true := by
      rw [quiet_iff (by rwa [hzacc]), hage, hz.cfg]
      omega
    refine ⟨z, hz.run, hzctl, hquiet, fun hrst => ?_⟩
    obtain ⟨y, u, hstep, -, hblock, hstb⟩ := manual_step hz.sound hzctl hquiet hrst
    exact ⟨y, hstep, eq_of_block State.ctl hblock, (eq_of_block State.mev hblock).trans hzacc, hstb⟩

end Machine

end Sys2Proof

/-! Whole commands: what the dispatcher's registers hold after the argument words of a command (R97,
R98), and when a packet is one of a well-formed command. -/

namespace Sys2Proof

/-! Well-formed arguments, word by word -/

/-- The entry is one the block accepts: both ends are channels, in order (R98). -/
def Entry.Legal (n : Nat) (e : Entry) : Prop :=
  1 ≤ e.lo ∧ e.lo ≤ e.hi ∧ e.hi ≤ n

/-- The arguments of a command so far are acceptable: more may follow (R59, R98). -/
def ArgsOk (n q : Nat) (i : Instr) (args : List Arg) : Prop :=
  args.all (Arg.ofClass i.argClass) = true ∧ (i.argClass = .num → args.length ≤ 1) ∧
    (∀ e ∈ args.filterMap Arg.entry?, e.Legal n) ∧
    (i = .clsQ → ((args.filterMap Arg.entry?).map Entry.size).sum ≤ q)

/-- One more argument is acceptable after the arguments `l`. -/
def ArgOk (n q : Nat) (i : Instr) (l : List Arg) (a : Arg) : Prop :=
  Arg.ofClass i.argClass a = true ∧ (i.argClass = .num → l = []) ∧
    (∀ e, a.entry? = some e → e.Legal n) ∧
    (i = .clsQ → ∀ e, a.entry? = some e →
      ((l.filterMap Arg.entry?).map Entry.size).sum + e.size ≤ q)

theorem argsOk_nil (n q : Nat) (i : Instr) : ArgsOk n q i [] := by
  simp [ArgsOk]

theorem argsOk_concat_iff {n q : Nat} {i : Instr} {l : List Arg} {a : Arg} :
    ArgsOk n q i (l ++ [a]) ↔ ArgsOk n q i l ∧ ArgOk n q i l a := by
  have hlen : l.length + 1 ≤ 1 ↔ l = [] := by
    rw [← List.length_eq_zero_iff]
    omega
  cases ha : a.entry? with
  | none =>
    simp only [ArgsOk, ArgOk, List.all_append, List.all_cons, List.all_nil, Bool.and_true,
      Bool.and_eq_true, List.length_append, List.length_singleton, hlen, List.filterMap_append,
      List.filterMap_cons, List.filterMap_nil, ha, List.append_nil]
    constructor
    · rintro ⟨⟨hcl, hca⟩, hnum, hleg, hq⟩
      exact ⟨⟨hcl, fun h => by simp [hnum h], hleg, hq⟩, hca, hnum, by simp, by simp⟩
    · rintro ⟨⟨hcl, -, hleg, hq⟩, hca, hnum, -, -⟩
      exact ⟨⟨hcl, hca⟩, hnum, hleg, hq⟩
  | some e =>
    simp only [ArgsOk, ArgOk, List.all_append, List.all_cons, List.all_nil, Bool.and_true,
      Bool.and_eq_true, List.length_append, List.length_singleton, hlen, List.filterMap_append,
      List.filterMap_cons, List.filterMap_nil, ha, List.forall_mem_append,
      List.forall_mem_singleton, List.map_append, List.map_cons, List.map_nil, List.sum_append,
      List.sum_singleton, Option.some.injEq, forall_eq']
    constructor
    · rintro ⟨⟨hcl, hca⟩, hnum, ⟨hleg, he⟩, hq⟩
      exact ⟨⟨hcl, fun h => by simp [hnum h], hleg, fun h => (Nat.le_add_right ..).trans (hq h)⟩,
        hca, hnum, he, hq⟩
    · rintro ⟨⟨hcl, -, hleg, -⟩, hca, hnum, he, hq⟩
      exact ⟨⟨hcl, hca⟩, hnum, ⟨hleg, he⟩, hq⟩

/-- A command is well formed when its arguments are acceptable and none is missing. -/
theorem wellFormed_iff {n q : Nat} {i : Instr} {args : List Arg} :
    Command.wellFormed n q ⟨i, args⟩ = true ↔
      ArgsOk n q i args ∧ (i.argClass ≠ .none → args ≠ []) := by
  have hcount : i.argClass.countOk args.length = true ↔
      (i.argClass = .num → args.length ≤ 1) ∧ (i.argClass ≠ .none → args ≠ []) := by
    cases hcl : i.argClass with
    | list => simp [ArgClass.countOk, Nat.one_le_iff_ne_zero]
    | num =>
      simp only [ArgClass.countOk, beq_iff_eq, forall_const, ne_eq, reduceCtorEq, not_false_eq_true,
        ← List.length_eq_zero_iff]
      omega
    | none => simp [ArgClass.countOk]
  have hflags : Command.flagsOk q ⟨i, args⟩ = true ↔
      (i = .clsQ → ((args.filterMap Arg.entry?).map Entry.size).sum ≤ q) := by
    rw [Command.flagsOk, Bool.or_eq_true, imp_iff_not_or]
    exact or_congr bne_iff_ne decide_eq_true_iff
  have hlegal : ∀ e : Entry, (e.inRange n && e.ordered) = true ↔ e.Legal n := by
    intro e
    simp only [Entry.inRange, Entry.ordered, Entry.Legal, Bool.and_eq_true, decide_eq_true_eq]
    omega
  rw [Command.wellFormed, Command.shapeOk, Bool.and_eq_true, Bool.and_eq_true, Bool.and_eq_true,
    hcount, hflags, List.all_eq_true (l := Command.entries ⟨i, args⟩)]
  simp only [hlegal, Command.entries, ArgsOk]
  constructor
  · rintro ⟨⟨⟨⟨hnum, hne⟩, hcl⟩, hleg⟩, hq⟩
    exact ⟨⟨hcl, hnum, hleg, hq⟩, hne⟩
  · rintro ⟨⟨hcl, hnum, hleg, hq⟩, hne⟩
    exact ⟨⟨⟨⟨hnum, hne⟩, hcl⟩, hleg⟩, hq⟩

theorem decodeArgs_concat_eq_ok_iff {cl : ArgClass} {ps : List PortWord} {p : PortWord}
    {as : List Arg} :
    decodeArgs cl (ps ++ [p]) = .ok as ↔
      ∃ l a, decodeArgs cl ps = .ok l ∧ decodeArg cl p = .ok a ∧ as = l ++ [a] := by
  induction ps generalizing as with
  | nil => simp [decodeArgs_cons_eq_ok_iff, decodeArgs_nil_eq_ok_iff]
  | cons q ps ih =>
    simp only [List.cons_append, decodeArgs_cons_eq_ok_iff, ih]
    constructor
    · rintro ⟨b, -, hb, ⟨l, a, hl, ha, rfl⟩, rfl⟩
      exact ⟨b :: l, a, ⟨b, l, hb, hl, rfl⟩, ha, rfl⟩
    · rintro ⟨-, a, ⟨b, l, hb, hl, rfl⟩, ha, rfl⟩
      exact ⟨b, l ++ [a], hb, ⟨l, a, hl, ha, rfl⟩, rfl⟩

theorem list_of_ofClass_entry {cl : ArgClass} {e : Entry} (h : Arg.ofClass cl (.entry e) = true) :
    cl = .list := by
  cases cl <;> simp [Arg.ofClass] at h ⊢

theorem num_of_ofClass_number {cl : ArgClass} {v : Word} (h : Arg.ofClass cl (.number v) = true) :
    cl = .num := by
  cases cl <;> simp [Arg.ofClass] at h ⊢

theorem none_of_ofClass_ignored {cl : ArgClass} {w : Word} {m : Bool}
    (h : Arg.ofClass cl (.ignored w m) = true) : cl = .none := by
  cases cl <;> simp [Arg.ofClass] at h ⊢

/-- The word on the command port. -/
def Inputs.portWord (I : Inputs) : PortWord :=
  ⟨I.cmdData, I.cmdLast, I.cmdErr⟩

/-! The union and the flags of a channel list -/

theorem unionMask_append (es fs : List Entry) :
    unionMask (es ++ fs) = unionMask es ||| unionMask fs := by
  induction es with
  | nil => simp [unionMask]
  | cons e es ih => rw [List.cons_append, unionMask, ih, unionMask, BitVec.or_assoc]

theorem listFlags_append (r : Mask) (es fs : List Entry) :
    listFlags r (es ++ fs) = listFlags r es ++ listFlags r fs := by
  induction es with
  | nil => rfl
  | cons e es ih => rw [List.cons_append, listFlags, ih, listFlags, List.append_assoc]

theorem length_listFlags {n : Nat} (r : Mask) {es : List Entry} (h : ∀ e ∈ es, e.Legal n) :
    (listFlags r es).length = (es.map Entry.size).sum := by
  induction es with
  | nil => rfl
  | cons e es ih =>
    obtain ⟨⟨-, hord, -⟩, hes⟩ := List.forall_mem_cons.mp h
    simp only [listFlags, List.length_append, List.length_map, length_channels, ih hes,
      List.map_cons, List.sum_cons, Entry.size]
    omega

theorem cut_unionMask {c : Config} {es : List Entry} (h : ∀ e ∈ es, e.Legal c.n) :
    c.cut (unionMask es) = unionMask es := by
  induction es with
  | nil => exact cut_zero c
  | cons e es ih =>
    obtain ⟨⟨hlo, -, hhi⟩, hes⟩ := List.forall_mem_cons.mp h
    exact cut_or_self (cut_maskOf_channels hlo hhi) (ih hes)

namespace Machine

/-! What an argument word does, by the argument it stands for -/

/-- What an acceptable argument does to the dispatcher's registers (R97, R98). -/
def State.useArg (i : Instr) (a : Arg) (s : State) : State :=
  match a with
  | .entry e =>
    { s with
      amask := s.amask ||| maskOf (channels e.lo e.hi)
      qflags :=
        if i = .clsQ then s.qflags ++ (channels e.lo e.hi).map (closed s.relay) else s.qflags }
  | .number v => { s with aval := v }
  | .ignored _ _ => s

/-- The word is taken as an acceptable argument, or it raises an error and is none. -/
def TakesArg (i : Instr) (I : Inputs) (args : List Arg) (s r : State) : Prop :=
  (∃ a, decodeArg i.argClass I.portWord = .ok a ∧ ArgOk s.cfg.n s.cfg.qMax i args a ∧
    r = s.useArg i a) ∨
  (r.err ≠ 0#8 ∧
    ∀ a, decodeArg i.argClass I.portWord = .ok a → ¬ ArgOk s.cfg.n s.cfg.qMax i args a)

theorem decodeArg_list_eq_ok_iff {p : PortWord} {a : Arg} :
    decodeArg .list p = .ok a ↔ ∃ e, a = .entry e ∧ p.err = false ∧ p.data = encodeEntry e := by
  rw [decodeArg_eq_ok_iff]
  cases a with
  | entry e =>
    simp only [Arg.ofClass, encodeArg, PortWord.body, Prod.mk.injEq, true_and, Arg.entry.injEq,
      exists_eq_left']
    exact ⟨fun ⟨hw, hm⟩ => ⟨hm.symm, hw.symm⟩, fun ⟨hm, hw⟩ => ⟨hw.symm, hm.symm⟩⟩
  | number v | ignored w m => simp [Arg.ofClass]

theorem decodeArg_num_eq_ok_iff {p : PortWord} {a : Arg} :
    decodeArg .num p = .ok a ↔ p.err = false ∧ a = .number p.data := by
  rw [decodeArg_eq_ok_iff]
  cases a with
  | number v =>
    simp only [Arg.ofClass, encodeArg, PortWord.body, Prod.mk.injEq, true_and, Arg.number.injEq]
    exact ⟨fun ⟨hv, hm⟩ => ⟨hm.symm, hv⟩, fun ⟨hm, hv⟩ => ⟨hv, hm.symm⟩⟩
  | entry e | ignored w m => simp [Arg.ofClass]

/-- An entry word in the three commands of class LIST. -/
theorem takesArg_entry {i : Instr} (hi : i.argClass = .list) {s : State} {I : Inputs}
    {args : List Arg} (herr : s.err = 0#8)
    (hq : i = .clsQ → s.qflags.length = ((args.filterMap Arg.entry?).map Entry.size).sum) :
    TakesArg i I args s (s.entryArg (decide (i = .clsQ)) I) := by
  unfold TakesArg
  simp only [hi, decodeArg_list_eq_ok_iff]
  obtain ⟨hne, harg⟩ | ⟨e, hm, hw, hleg, harg⟩ :=
    entryArg_cases (I := I) herr (decide (i = .clsQ)) <;> rw [harg]
  · right
    refine ⟨hne, ?_⟩
    rintro a ⟨e, rfl, hm, hw⟩ ⟨-, -, hleg, -⟩
    have hm : I.cmdErr = false := hm
    have hw : I.cmdData = encodeEntry e := hw
    rw [hm, hw, entryErr_encodeEntry] at hne
    exact hne (elementErr_eq_zero_iff.mpr (hleg e rfl))
  · obtain ⟨hlo, hord, hhi⟩ := hleg
    by_cases hc : i = .clsQ
    · subst hc
      rw [decide_eq_true rfl, useEntry_collect herr hlo hord hhi, hq rfl]
      split
      · rename_i hfit
        refine .inl ⟨.entry e, ⟨e, rfl, hm, hw⟩, ⟨rfl, nofun, ?_, ?_⟩, rfl⟩
        · intro f hf
          obtain rfl : e = f := Option.some.inj hf
          exact ⟨hlo, hord, hhi⟩
        · intro _ f hf
          obtain rfl : e = f := Option.some.inj hf
          exact hfit
      · rename_i hfit
        refine .inr ⟨by simp, ?_⟩
        rintro a ⟨f, rfl, -, hw'⟩ ⟨-, -, -, hsum⟩
        obtain rfl : e = f := encodeEntry_injective (hw.symm.trans hw')
        exact hfit (hsum rfl e rfl)
    · rw [decide_eq_false hc, useEntry_union hlo hord hhi]
      refine .inl ⟨.entry e, ⟨e, rfl, hm, hw⟩, ⟨by rw [hi]; rfl, ?_, ?_, fun h => absurd h hc⟩, ?_⟩
      · rw [hi]
        nofun
      · intro f hf
        obtain rfl : e = f := Option.some.inj hf
        exact ⟨hlo, hord, hhi⟩
      · rw [State.useArg, if_neg hc]

/-- A numeric word in SET and SET_MBB. -/
theorem takesArg_number {i : Instr} (hi : i.argClass = .num) {s : State} {I : Inputs}
    {args : List Arg} (herr : s.err = 0#8) (hn : s.nargs = 0#16 ↔ args = []) :
    TakesArg i I args s (s.numberArg I) := by
  unfold TakesArg
  simp only [hi, decodeArg_num_eq_ok_iff]
  unfold State.numberArg
  by_cases hz : s.nargs = 0#16
  · rw [if_neg (not_not.mpr hz)]
    cases hm : I.cmdErr with
    | true =>
      right
      simp only [decodeNumber, if_true, raise_of_ok herr]
      refine ⟨by simp [ErrCode.code], ?_⟩
      rintro a ⟨hm', -⟩
      have hm' : I.cmdErr = false := hm'
      rw [hm] at hm'
      cases hm'
    | false =>
      refine .inl ⟨.number I.cmdData, ⟨hm, rfl⟩, ⟨by rw [hi]; rfl, fun _ => hn.mp hz, nofun, nofun⟩,
        ?_⟩
      rfl
  · rw [if_pos hz, raise_of_ok herr]
    refine .inr ⟨by simp [ErrCode.code], ?_⟩
    rintro a - ⟨-, hnil, -⟩
    exact hz (hn.mpr (hnil hi))

/-- A word in the four commands of class NONE. -/
theorem takesArg_ignored {i : Instr} (hi : i.argClass = .none) (s : State) (I : Inputs)
    (args : List Arg) : TakesArg i I args s s := by
  refine .inl ⟨.ignored I.cmdData I.cmdErr, by rw [hi]; rfl, ⟨by rw [hi]; rfl, ?_, nofun, nofun⟩,
    rfl⟩
  rw [hi]
  nofun

theorem takesArg_argRule {i : Instr} {s : State} {I : Inputs} {args : List Arg}
    (herr : s.err = 0#8) (hn : s.nargs = 0#16 ↔ args = [])
    (hq : i = .clsQ → s.qflags.length = ((args.filterMap Arg.entry?).map Entry.size).sum) :
    TakesArg i I args s (argRule i I s) := by
  cases i with
  | opn | cls | clsQ => exact takesArg_entry rfl herr hq
  | set | setMbb => exact takesArg_number rfl herr hn
  | opnAll | stateQ | getQ | ident => exact takesArg_ignored rfl s I args

/-! The registers of a command under way -/

/-- The registers hold what acceptable arguments of the command `i` leave (R97, R98). -/
def HoldsArgs (i : Instr) (args : List Arg) (s : State) : Prop :=
  (i.argClass = .list → s.amask = unionMask (args.filterMap Arg.entry?)) ∧
    (i.argClass = .num → s.aval = Command.number ⟨i, args⟩) ∧
    (i = .clsQ → s.qflags = listFlags s.relay (args.filterMap Arg.entry?))

theorem holdsArgs_concat {i : Instr} {n q : Nat} {args : List Arg} {a : Arg} {s : State}
    (h : HoldsArgs i args s) (ha : ArgOk n q i args a) :
    HoldsArgs i (args ++ [a]) (s.useArg i a) := by
  obtain ⟨hmask, hval, hflags⟩ := h
  obtain ⟨hcl, hnum, -, -⟩ := ha
  cases a with
  | entry e =>
    have hlist : i.argClass = .list := list_of_ofClass_entry hcl
    refine ⟨fun _ => ?_, fun hi => ?_, fun hi => ?_⟩
    · rw [List.filterMap_append, unionMask_append, ← hmask hlist]
      simp [State.useArg, Arg.entry?, unionMask]
    · rw [hlist] at hi
      cases hi
    · rw [List.filterMap_append, listFlags_append]
      simp [State.useArg, Arg.entry?, listFlags, hi, ← hflags hi]
  | number v =>
    have hi : i.argClass = .num := num_of_ofClass_number hcl
    rw [hnum hi]
    refine ⟨fun hl => ?_, fun _ => rfl, fun hc => ?_⟩
    · rw [hi] at hl
      cases hl
    · rw [hc] at hi
      cases hi
  | ignored w m =>
    have hi : i.argClass = .none := none_of_ofClass_ignored hcl
    refine ⟨fun hl => ?_, fun hl => ?_, fun hc => ?_⟩
    · rw [hi] at hl
      cases hl
    · rw [hi] at hl
      cases hl
    · rw [hc] at hi
      cases hi

/-- The dispatcher's registers after the argument words `ws` of the command `i`: an error is raised
exactly when the words are not acceptable arguments. -/
structure Gathered (i : Instr) (ws : List PortWord) (s : State) : Prop where
  nargs : s.nargs = 0#16 ↔ ws = []
  known : s.ErrKnown
  err : s.err = 0#8 ↔
    ∃ args, decodeArgs i.argClass ws = .ok args ∧ ArgsOk s.cfg.n s.cfg.qMax i args
  holds : ∀ args, decodeArgs i.argClass ws = .ok args → ArgsOk s.cfg.n s.cfg.qMax i args →
    HoldsArgs i args s

/-- After its header a command has gathered nothing. -/
theorem gathered_beginCommand (i : Instr) (s : State) :
    Gathered i [] (s.beginCommand i.opcode 0#8) where
  nargs := by simp
  known := Nat.zero_le _
  err := by simpa [decodeArgs_nil_eq_ok_iff] using argsOk_nil _ _ i
  holds := by
    intro args hargs _
    rw [decodeArgs_nil_eq_ok_iff.mp hargs]
    exact ⟨fun _ => rfl, fun _ => rfl, fun _ => rfl⟩

theorem decodeArgs_eq_nil_iff {cl : ArgClass} {ws : List PortWord} {args : List Arg}
    (h : decodeArgs cl ws = .ok args) : args = [] ↔ ws = [] := by
  obtain ⟨-, hmap⟩ := decodeArgs_eq_ok_iff.mp h
  rw [← List.map_eq_nil_iff (f := encodeArg), hmap, List.map_eq_nil_iff]

/-- Receiving an argument word gathers it. -/
theorem Gathered.receive {i : Instr} {ws : List PortWord} {s : State} (h : Gathered i ws s)
    (hctl : s.ctl = .args) : Gathered i (ws ++ [s.input.portWord]) (received i s) := by
  have hcfg : (received i s).cfg = s.cfg := received_cfg i s
  have hknown : (received i s).ErrKnown := (received_keepsBounds i s).2 h.known
  by_cases herr : s.err = 0#8
  · obtain ⟨args, hargs, hok⟩ := h.err.mp herr
    have hholds := h.holds args hargs hok
    have huniq : ∀ l, decodeArgs i.argClass ws = .ok l → l = args := fun l hl =>
      Except.ok.inj (hl.symm.trans hargs)
    have htakes := takesArg_argRule (I := s.input) herr
      (h.nargs.trans (decodeArgs_eq_nil_iff hargs).symm)
      (fun hc => by rw [hholds.2.2 hc]; exact length_listFlags s.relay hok.2.2.1)
    have hrec := received_args_of_ok hctl herr i
    have hnargs : (received i s).nargs = 0#16 ↔ ws ++ [s.input.portWord] = [] := by
      rw [hrec]
      simp [argCount_ne_zero]
    obtain ⟨a, ha, haok, hr⟩ | ⟨hne, hno⟩ := htakes
    · rw [hr] at hrec
      have herr' : (received i s).err = 0#8 := by
        rw [hrec]
        cases a <;> exact herr
      have hdec : decodeArgs i.argClass (ws ++ [s.input.portWord]) = .ok (args ++ [a]) :=
        decodeArgs_concat_eq_ok_iff.mpr ⟨args, a, hargs, ha, rfl⟩
      refine ⟨hnargs, hknown, ?_, fun l hl _ => ?_⟩
      · rw [hcfg]
        exact iff_of_true herr' ⟨args ++ [a], hdec, argsOk_concat_iff.mpr ⟨hok, haok⟩⟩
      · obtain rfl : l = args ++ [a] := Except.ok.inj (hl.symm.trans hdec)
        rw [hrec]
        exact holdsArgs_concat hholds haok
    · have hnone : ¬ ∃ l, decodeArgs i.argClass (ws ++ [s.input.portWord]) = .ok l ∧
          ArgsOk s.cfg.n s.cfg.qMax i l := by
        rintro ⟨l, hl, hlok⟩
        obtain ⟨l, a, hl', ha, rfl⟩ := decodeArgs_concat_eq_ok_iff.mp hl
        obtain rfl := huniq l hl'
        exact hno a ha (argsOk_concat_iff.mp hlok).2
      refine ⟨hnargs, hknown, ?_, fun l hl hlok => ?_⟩
      · rw [hcfg]
        refine iff_of_false ?_ hnone
        rw [hrec]
        exact hne
      · rw [hcfg] at hlok
        exact absurd ⟨l, hl, hlok⟩ hnone
  · have hrec := received_args_of_err hctl herr i
    have hnone : ¬ ∃ l, decodeArgs i.argClass (ws ++ [s.input.portWord]) = .ok l ∧
        ArgsOk s.cfg.n s.cfg.qMax i l := by
      rintro ⟨l, hl, hlok⟩
      obtain ⟨l, a, hl', -, rfl⟩ := decodeArgs_concat_eq_ok_iff.mp hl
      exact herr (h.err.mpr ⟨l, hl', (argsOk_concat_iff.mp hlok).1⟩)
    refine ⟨?_, hknown, ?_, fun l hl hlok => ?_⟩
    · rw [hrec]
      simp [argCount_ne_zero]
    · rw [hcfg]
      refine iff_of_false ?_ hnone
      rw [hrec]
      exact herr
    · rw [hcfg] at hlok
      exact absurd ⟨l, hl, hlok⟩ hnone

/-- `Gathered` does not read the debouncer, `mev_stb` and the environment. -/
theorem Gathered.of_block {i : Instr} {ws : List PortWord} {t u : State} (h : t.block = u.block)
    (hu : Gathered i ws u) : Gathered i ws t := by
  have hu : Gathered i ws u.block := ⟨hu.nargs, hu.known, hu.err, hu.holds⟩
  rw [← h] at hu
  exact ⟨hu.nargs, hu.known, hu.err, hu.holds⟩

/-- A command ends without an error exactly when its words are those of a well-formed command. -/
theorem Gathered.finalErr_eq_zero_iff {i : Instr} {ws : List PortWord} {u : State}
    (h : Gathered i ws u) :
    u.finalErr i.argClass = 0#8 ↔ ∃ args, decodeArgs i.argClass ws = .ok args ∧
      Command.wellFormed u.cfg.n u.cfg.qMax ⟨i, args⟩ = true := by
  by_cases herr : u.err = 0#8
  · obtain ⟨args, hargs, hok⟩ := h.err.mp herr
    have hwf : (∃ l, decodeArgs i.argClass ws = .ok l ∧
        Command.wellFormed u.cfg.n u.cfg.qMax ⟨i, l⟩ = true) ↔ (i.argClass ≠ .none → ws ≠ []) := by
      constructor
      · rintro ⟨l, hl, hlwf⟩ hi
        rw [ne_eq, ← decodeArgs_eq_nil_iff hl]
        exact (wellFormed_iff.mp hlwf).2 hi
      · intro hne
        refine ⟨args, hargs, wellFormed_iff.mpr ⟨hok, fun hi => ?_⟩⟩
        rw [ne_eq, decodeArgs_eq_nil_iff hargs]
        exact hne hi
    rw [hwf]
    by_cases hmiss : i.argClass ≠ .none ∧ u.nargs = 0#16
    · obtain ⟨hi, hz⟩ := hmiss
      rw [finalErr_missing herr hi hz]
      exact iff_of_false (by decide) fun hne => hne hi (h.nargs.mp hz)
    · refine iff_of_true ?_ fun hi hws => hmiss ⟨hi, h.nargs.mpr hws⟩
      rw [State.finalErr, if_neg (fun hc => hmiss hc.2), herr]
  · refine iff_of_false ?_ ?_
    · rwa [finalErr_of_err_ne herr]
    · rintro ⟨args, hargs, hwf⟩
      exact herr (h.err.mpr ⟨args, hargs, (wellFormed_iff.mp hwf).1⟩)

end Machine

end Sys2Proof

/-! Runs of whole commands (R55, R100 to R112, R119, R152): a packet offered word by word, its
answer, and the words of the answer. -/

namespace Sys2Proof

/-! Packets and the inputs that deliver them -/

theorem word?_eq_some_iff {I : Inputs} {p : PortWord} :
    I.word? = some p ↔ I.cmdValid = true ∧ p = I.portWord := by
  unfold Inputs.word?
  cases I.cmdValid <;> simp [Inputs.portWord, eq_comm]

theorem word?_eq_none_iff {I : Inputs} : I.word? = none ↔ I.cmdValid = false := by
  unfold Inputs.word?
  cases I.cmdValid <;> simp

theorem framed_concat_iff {ps : List PortWord} {q : PortWord} :
    framed (ps ++ [q]) = true ↔ (∀ p ∈ ps, p.last = false) ∧ q.last = true := by
  induction ps with
  | nil => simp [framed]
  | cons p ps ih =>
    have hcons : framed (p :: ps ++ [q]) = (!p.last && framed (ps ++ [q])) := by
      cases ps <;> rfl
    rw [hcons, Bool.and_eq_true, ih, Bool.not_eq_true', List.forall_mem_cons, and_assoc]

/-- The inputs of a packet: the one step of a header that ends it, or the header's step, the steps
of the words between, with gaps, and the step of the last word. -/
theorem Delivers.cases {h : PortWord} {ps : List PortWord} {l : List Inputs}
    (hd : Delivers (h :: ps) l) (hf : framed (h :: ps) = true) :
    (ps = [] ∧ h.last = true ∧ ∃ I, l = [I] ∧ I.word? = some h) ∨
    ∃ qs q I m J, ps = qs ++ [q] ∧ l = I :: (m ++ [J]) ∧ I.word? = some h ∧ h.last = false ∧
      m.filterMap Inputs.word? = qs ∧ (∀ p ∈ qs, p.last = false) ∧ J.word? = some q ∧
      q.last = true := by
  obtain ⟨hwords, -, ⟨I, hI, hIv⟩, ⟨J, hJ, hJv⟩⟩ := hd
  obtain ⟨l, rfl⟩ := List.head?_eq_some_iff.mp hI
  have hIw : I.word? = some I.portWord := word?_eq_some_iff.mpr ⟨hIv, rfl⟩
  rw [List.filterMap_cons, hIw] at hwords
  obtain ⟨rfl, hps⟩ := List.cons.inj hwords
  induction l using List.reverseRecOn with
  | nil =>
    obtain rfl : ps = [] := hps.symm
    exact .inl ⟨rfl, hf, I, rfl, hIw⟩
  | append_singleton m K =>
    obtain rfl : K = J := by
      rw [← List.cons_append, List.getLast?_concat] at hJ
      exact Option.some.inj hJ
    have hJw : K.word? = some K.portWord := word?_eq_some_iff.mpr ⟨hJv, rfl⟩
    rw [List.filterMap_append, List.filterMap_cons, hJw, List.filterMap_nil] at hps
    subst hps
    obtain ⟨hnot, hlast⟩ := framed_concat_iff (ps := I.portWord :: _).mp hf
    obtain ⟨hh, hqs⟩ := List.forall_mem_cons.mp hnot
    exact .inr ⟨_, _, I, m, K, rfl, rfl, hIw, hh, rfl, hqs, hJw, hlast⟩

namespace Machine

/-! One word of a command -/

theorem input_lowered (s : State) : s.lowered.input = s.input := rfl

/-- The row of a step with a word on the command port, where the block listens. -/
theorem Row.of_word {s u : State} (hagree : s.PathsAgree) (hlisten : s.Listening)
    (hvalid : s.input.cmdValid = true) (h : Row s u) : s.lowered.commandWord = .next u := by
  have hseq := seq_idle_of_listening hagree hlisten
  have hrsp : s.ctl ≠ .rsp := by
    obtain ⟨hc, -⟩ | hc := hlisten <;> simp [hc]
  cases h with
  | manual hc hq _ =>
    obtain ⟨-, hq'⟩ | hc' := hlisten
    · rw [hq] at hq'
      cases hq'
    · rw [hc] at hc'
      cases hc'
  | word _ _ hword => exact hword
  | noWord _ hv =>
    rw [hvalid] at hv
    cases hv
  | hold hb | count hb | second hb | ack hb | done hb =>
    rw [hseq] at hb
    cases hb
  | take hc | offer hc => exact absurd hc hrsp

/-- The row of a step without a word in C_ARGS. -/
theorem Row.of_gap {s u : State} (hagree : s.PathsAgree) (hctl : s.ctl = .args)
    (hvalid : s.input.cmdValid = false) (h : Row s u) : u = s.lowered := by
  have hseq := seq_idle_of_listening hagree (.inr hctl)
  cases h with
  | manual hc | take hc =>
    rw [hctl] at hc
    cases hc
  | word _ hv =>
    rw [hvalid] at hv
    cases hv
  | noWord | hold | offer => rfl
  | count hb | second hb | ack hb | done hb =>
    rw [hseq] at hb
    cases hb

/-- A step that takes a command word, as far as the rows of R119 see it. -/
theorem word_step {s t : State} (hlisten : s.Listening) (hrst : s.input.rst = false)
    (hvalid : s.input.cmdValid = true) (h : step s = .next t) :
    ∃ u, s.lowered.commandWord = .next u ∧ t.block = u.block := by
  obtain ⟨-, ⟨hagree, -⟩, u, a, hrow, rfl⟩ := step_row h hrst
  exact ⟨u, hrow.of_word hagree hlisten hvalid, endStep_block s a u⟩

theorem gap_step {s t : State} (hctl : s.ctl = .args) (hrst : s.input.rst = false)
    (hvalid : s.input.cmdValid = false) (h : step s = .next t) : t.block = s.block := by
  obtain ⟨-, ⟨hagree, -⟩, u, a, hrow, rfl⟩ := step_row h hrst
  rw [endStep_block s a u, hrow.of_gap hagree hctl hvalid, lowered_block]

/-! A command with a legal header -/

/-- After its header and the argument words `ws` the command `i` waits for more; the relays and the
sequencer are as `s` has them. -/
structure InCommand (s : State) (i : Instr) (ws : List PortWord) (y : State) : Prop where
  ctl : y.ctl = .args
  op : y.op = i.opcode
  relay : y.relay = s.relay
  seq : y.seq = .idle
  cfg : y.cfg = s.cfg
  gathered : Gathered i ws y

theorem InCommand.of_block {s t u : State} {i : Instr} {ws : List PortWord}
    (h : t.block = u.block) (hu : InCommand s i ws u) : InCommand s i ws t where
  ctl := eq_of_block State.ctl h hu.ctl
  op := eq_of_block State.op h hu.op
  relay := eq_of_block State.relay h hu.relay
  seq := eq_of_block State.seq h hu.seq
  cfg := eq_of_block State.cfg h hu.cfg
  gathered := hu.gathered.of_block h

theorem commandWord_of_header {s : State} {i : Instr} (hctl : s.ctl = .idle)
    (hdec : decodeHeader s.input.cmdData s.input.cmdErr = .ok i) : s.commandWord = exec i s := by
  rw [State.commandWord, if_pos hctl, hdec]

theorem commandWord_of_op {s : State} {i : Instr} (hctl : s.ctl = .args) (hop : s.op = i.opcode) :
    s.commandWord = exec i s := by
  rw [State.commandWord, if_neg (by simp [hctl]), instrOfOpcode_eq_some_iff.mpr hop]

theorem received_args_op {s : State} (hctl : s.ctl = .args) (i : Instr) :
    (received i s).op = s.op := by
  by_cases herr : s.err = 0#8
  · rw [received_args_of_ok hctl herr, argRule_frame]
  · rw [received_args_of_err hctl herr]

theorem received_ctl (i : Instr) (s : State) : (received i s).ctl = s.ctl := by
  rw [received_frame]

theorem received_relay (i : Instr) (s : State) : (received i s).relay = s.relay := by
  rw [received_frame]

theorem received_seq (i : Instr) (s : State) : (received i s).seq = s.seq := by
  rw [received_frame]

/-- Receiving an argument word stays in the command. -/
theorem InCommand.receive {s y : State} {i : Instr} {ws : List PortWord} (h : InCommand s i ws y) :
    InCommand s i (ws ++ [y.input.portWord]) (received i y) where
  ctl := (received_ctl i y).trans h.ctl
  op := (received_args_op h.ctl i).trans h.op
  relay := (received_relay i y).trans h.relay
  seq := (received_seq i y).trans h.seq
  cfg := (received_cfg i y).trans h.cfg
  gathered := h.gathered.receive h.ctl

/-- The header of a command starts it. -/
theorem inCommand_of_header {s : State} (hseq : s.seq = .idle) (i : Instr) :
    InCommand s i [] { s.lowered.beginCommand i.opcode 0#8 with ctl := .args } where
  ctl := rfl
  op := rfl
  relay := rfl
  seq := hseq
  cfg := rfl
  gathered :=
    have h := gathered_beginCommand i s.lowered
    ⟨h.nargs, h.known, h.err, h.holds⟩

/-- The command keeps gathering under the inputs `m`, none of whose words is the last. -/
def KeepsGathering (s : State) (i : Instr) (m : List Inputs) (y : State) : Prop :=
  (∀ p ∈ m.filterMap Inputs.word?, p.last = false) →
    InCommand s i (m.filterMap Inputs.word?) y

theorem KeepsGathering.step {s : State} {i : Instr} {m : List Inputs} {I : Inputs} {y t : State}
    (h : KeepsGathering s i m y) (hI : y.input = I) (hrst : I.rst = false)
    (hstep : step y = .next t) : KeepsGathering s i (m ++ [I]) t := by
  subst hI
  intro hlast
  rw [List.filterMap_append, List.forall_mem_append] at hlast
  obtain ⟨hm, hI⟩ := hlast
  have hy := h hm
  rw [List.filterMap_append]
  cases hv : y.input.cmdValid with
  | false =>
    rw [List.filterMap_cons, word?_eq_none_iff.mpr hv, List.filterMap_nil, List.append_nil]
    exact hy.of_block (gap_step hy.ctl hrst hv hstep)
  | true =>
    have hword : y.input.word? = some y.input.portWord := word?_eq_some_iff.mpr ⟨hv, rfl⟩
    rw [List.filterMap_cons, hword, List.filterMap_nil] at hI ⊢
    have hnot : y.input.cmdLast = false := hI _ (List.mem_singleton.mpr rfl)
    obtain ⟨u, hu, hblock⟩ := word_step (.inr hy.ctl) hrst hv hstep
    have hylow : InCommand s i (m.filterMap Inputs.word?) y.lowered := hy.of_block (lowered_block y)
    rw [commandWord_of_op hylow.ctl hylow.op, exec_args_not_last hylow.ctl hv hnot] at hu
    obtain rfl := Host.Outcome.next.inj hu
    exact hylow.receive.of_block hblock

/-- The state `z` is what the command `i` leaves when it ends with the dispatcher's registers of `u`
(R100). -/
def Finishes (i : Instr) (u z : State) : Prop :=
  (u.finalErr i.argClass ≠ 0#8 → z.block = (u.respond (errorRsp (u.finalErr i.argClass))).block) ∧
    (u.finalErr i.argClass = 0#8 → ∃ v, action i u = .next v ∧ z.block = v.block)

/-- A last word finishes its command. -/
theorem finishes_of_exec {i : Instr} {s v z : State} (ha : s.accepts = true)
    (hlast : s.input.cmdLast = true) (h : exec i s = .next v) (hz : z.block = v.block) :
    Finishes i (received i s) z := by
  constructor
  · intro hne
    rw [exec_last_error ha hlast rfl hne] at h
    rw [hz, ← Host.Outcome.next.inj h]
  · intro hzero
    rw [exec_last_action ha hlast hzero] at h
    exact ⟨v, h, hz⟩

/-- Before the last step of a run the relays and the sequencer are as `s` has them. -/
def SteadyBefore (s : State) (l : List Inputs) : Prop :=
  ∀ k, k < l.length → ∃ y, run k s = .next y ∧ y.relay = s.relay ∧ y.seq = .idle

/-- What a run keeps holds after each of its steps. -/
theorem exists_run_take {P : List Inputs → State → Prop}
    (hstep : ∀ (m : List Inputs) (I : Inputs) (y t : State), y.Sound → P m y → y.input = I →
      I.rst = false → step y = .next t → P (m ++ [I]) t)
    {l rest : List Inputs} {s : State} (hs : s.Sound) (h0 : P [] s) (hin : s.inputs = l ++ rest)
    (hr : noReset l = true) {k : Nat} (hk : k ≤ l.length) :
    ∃ y, run k s = .next y ∧ P (l.take k) y := by
  have hin' : s.inputs = l.take k ++ (l.drop k ++ rest) := by
    rw [hin, ← List.append_assoc, List.take_append_drop]
  have hr' : noReset (l.take k) = true := by
    rw [← List.take_append_drop k l] at hr
    exact ((noReset_append _ _).mp hr).1
  obtain ⟨y, hy, hP⟩ := exists_runsThrough hstep hs h0 hin' hr'
  have hrun := hy.run
  rw [List.length_take, Nat.min_eq_left hk] at hrun
  exact ⟨y, hrun, hP⟩

/-- A run's steadiness: the first state, the state after the first step, and those after it. -/
theorem steadyBefore_of_steps {s t : State} {I J : Inputs} {m : List Inputs} (hseq : s.seq = .idle)
    (hstep : step s = .next t)
    (h : ∀ k, k ≤ m.length → ∃ y, run k t = .next y ∧ y.relay = s.relay ∧ y.seq = .idle) :
    SteadyBefore s (I :: (m ++ [J])) := by
  intro k hk
  cases k with
  | zero => exact ⟨s, rfl, rfl, hseq⟩
  | succ k =>
    rw [run_succ hstep]
    refine h k ?_
    simp at hk
    omega

/-- A packet with a legal header is consumed to its last word, with which the command finishes. -/
theorem deliver_legal {h : PortWord} {ps : List PortWord} {s : State} {l rest : List Inputs}
    {i : Instr} (hs : s.Sound) (hctl : s.ctl = .idle) (hquiet : s.quiet = false)
    (hf : framed (h :: ps) = true) (hdec : decodeHeader h.data h.err = .ok i)
    (hin : s.inputs = l ++ rest) (hd : Delivers (h :: ps) l) :
    ∃ u z, RunsThrough l s z ∧ Gathered i ps u ∧ u.relay = s.relay ∧ u.seq = .idle ∧
      u.cfg = s.cfg ∧ Finishes i u z ∧ SteadyBefore s l := by
  have hseq := seq_idle_of_idle hs hctl
  have hr : noReset l = true := hd.2.1
  obtain ⟨rfl, hlast, I, rfl, hI⟩ | ⟨qs, q, I, m, J, rfl, rfl, hI, hnot, rfl, hqs, hJ, hlast⟩ :=
    hd.cases hf
  · obtain ⟨hv, rfl⟩ := word?_eq_some_iff.mp hI
    have hrst := noReset_singleton.mp hr
    obtain rfl : s.input = I := State.input_cons s I rest hin
    obtain ⟨t, hstep, ht⟩ := exists_runsThrough_step hs hin hrst
    obtain ⟨v, hw, hblock⟩ := word_step (.inl ⟨hctl, hquiet⟩) hrst hv hstep
    rw [commandWord_of_header (s := s.lowered) hctl hdec] at hw
    have hfin := finishes_of_exec (s := s.lowered) (accepts_of_idle hctl hquiet hv) hlast hw hblock
    rw [received_idle (s := s.lowered) hctl] at hfin
    refine ⟨_, t, ht, gathered_beginCommand i s.lowered, rfl, hseq, rfl, hfin, fun k hk => ?_⟩
    obtain rfl : k = 0 := by simpa using hk
    exact ⟨s, rfl, rfl, hseq⟩
  · obtain ⟨hv, rfl⟩ := word?_eq_some_iff.mp hI
    obtain ⟨hvJ, rfl⟩ := word?_eq_some_iff.mp hJ
    obtain ⟨hrst, hr⟩ := noReset_cons.mp hr
    obtain ⟨hrm, hrJ⟩ := (noReset_append m [J]).mp hr
    have hrJ := noReset_singleton.mp hrJ
    obtain rfl : s.input = I := State.input_cons s I _ hin
    obtain ⟨t, hstep, ht⟩ := exists_runsThrough_step hs hin hrst
    obtain ⟨v, hw, hblock⟩ := word_step (.inl ⟨hctl, hquiet⟩) hrst hv hstep
    rw [commandWord_of_header (s := s.lowered) hctl hdec,
      exec_not_last (accepts_of_idle (s := s.lowered) hctl hquiet hv) hnot,
      received_idle (s := s.lowered) hctl] at hw
    obtain rfl := Host.Outcome.next.inj hw
    have ht0 : KeepsGathering s i [] t := fun _ =>
      InCommand.of_block hblock (inCommand_of_header hseq i)
    have hkeeps : ∀ (m : List Inputs) (I : Inputs) (y t : State), y.Sound → KeepsGathering s i m y →
        y.input = I → I.rst = false → step y = .next t → KeepsGathering s i (m ++ [I]) t :=
      fun _ _ _ _ _ hP hI hrst h => hP.step hI hrst h
    have htin : t.inputs = m ++ (J :: rest) := ht.rest (by simpa using hin)
    obtain ⟨y, hy, hP⟩ := exists_runsThrough hkeeps ht.sound ht0 htin hrm
    have hyc := hP hqs
    obtain rfl : y.input = J := State.input_cons y J rest (hy.rest htin)
    obtain ⟨z, hzstep, hz⟩ := exists_runsThrough_step hy.sound (hy.rest htin) hrJ
    obtain ⟨v, hw, hzblock⟩ := word_step (.inr hyc.ctl) hrJ hvJ hzstep
    have hylow : InCommand s i (m.filterMap Inputs.word?) y.lowered :=
      hyc.of_block (lowered_block y)
    rw [commandWord_of_op hylow.ctl hylow.op] at hw
    have hu := hylow.receive
    refine ⟨_, z, ht.append (hy.append hz), hu.gathered, hu.relay, hu.seq, hu.cfg,
      finishes_of_exec (accepts_of_args hylow.ctl hvJ) hlast hw hzblock,
      steadyBefore_of_steps hseq hstep fun k hk => ?_⟩
    obtain ⟨x, hx, hPx⟩ := exists_run_take hkeeps ht.sound ht0 htin hrm hk
    have hxc := hPx fun p hp => hqs p ?_
    · exact ⟨x, hx, hxc.relay, hxc.seq⟩
    · exact ((List.take_sublist k m).filterMap _).subset hp

/-! A command with an illegal header -/

/-- The command's header was not legal: E_OPCODE is raised, and the words that follow are only
counted. -/
structure InIllegal (s : State) (op : BitVec 4) (y : State) : Prop where
  ctl : y.ctl = .args
  op : y.op = op
  err : y.err = 1#8
  relay : y.relay = s.relay
  seq : y.seq = .idle

theorem InIllegal.of_block {s t u : State} {op : BitVec 4} (h : t.block = u.block)
    (hu : InIllegal s op u) : InIllegal s op t where
  ctl := eq_of_block State.ctl h hu.ctl
  op := eq_of_block State.op h hu.op
  err := eq_of_block State.err h hu.err
  relay := eq_of_block State.relay h hu.relay
  seq := eq_of_block State.seq h hu.seq

/-- After an error a word in C_ARGS is only counted, whatever the opcode. -/
theorem commandWord_of_err {s : State} (hctl : s.ctl = .args) (herr : s.err ≠ 0#8)
    (hvalid : s.input.cmdValid = true) :
    s.commandWord = .next (
      if s.input.cmdLast then
        ({ s with nargs := argCount s.nargs } : State).respond (errorRsp s.err)
      else { s with nargs := argCount s.nargs }) := by
  obtain ⟨i, hw, -⟩ | ⟨hw, -⟩ := commandWord_cases s <;> rw [hw]
  · have hrec := received_args_of_err hctl herr i
    cases hlast : s.input.cmdLast with
    | false =>
      rw [exec_args_not_last hctl hvalid hlast, hrec]
      rfl
    | true =>
      rw [exec_args_last_error hctl hvalid hlast (by rw [hrec]) herr, hrec]
      rfl
  · unfold State.illegalWord
    have hne : s.ctl ≠ .idle := by simp [hctl]
    have herr' : ({ s with nargs := argCount s.nargs } : State).err ≠ 0#8 := herr
    rw [if_neg hne, countArg_eq]
    dsimp only at herr' ⊢
    rw [if_neg herr', ← hctl]
    cases s.input.cmdLast <;> rfl

theorem illegalWord_of_idle {s : State} (hctl : s.ctl = .idle) :
    s.illegalWord = .next (
      if s.input.cmdLast then
        (s.beginCommand (headerOpcode s.input.cmdData) 1#8).respond (errorRsp 1#8)
      else { s.beginCommand (headerOpcode s.input.cmdData) 1#8 with ctl := .args }) := by
  unfold State.illegalWord
  rw [if_pos hctl]
  dsimp only [ErrCode.code]
  rw [State.beginCommand_err, if_neg (by decide)]
  cases s.input.cmdLast <;> rfl

theorem commandWord_of_illegal_header {s : State} (hctl : s.ctl = .idle)
    (hdec : ∀ i, decodeHeader s.input.cmdData s.input.cmdErr ≠ .ok i) :
    s.commandWord = s.illegalWord := by
  obtain ⟨i, -, ⟨-, hi⟩ | ⟨hne, -⟩⟩ | ⟨hw, -⟩ := commandWord_cases s
  · exact absurd hi (hdec i)
  · exact absurd hctl hne
  · exact hw

/-- The words of an illegal command are only counted under the inputs `m`, none of whose words is
the last. -/
def KeepsCounting (s : State) (op : BitVec 4) (m : List Inputs) (y : State) : Prop :=
  (∀ p ∈ m.filterMap Inputs.word?, p.last = false) → InIllegal s op y

theorem KeepsCounting.step {s : State} {op : BitVec 4} {m : List Inputs} {I : Inputs} {y t : State}
    (h : KeepsCounting s op m y) (hI : y.input = I) (hrst : I.rst = false)
    (hstep : step y = .next t) : KeepsCounting s op (m ++ [I]) t := by
  subst hI
  intro hlast
  rw [List.filterMap_append, List.forall_mem_append] at hlast
  obtain ⟨hm, hI⟩ := hlast
  have hy := h hm
  cases hv : y.input.cmdValid with
  | false => exact hy.of_block (gap_step hy.ctl hrst hv hstep)
  | true =>
    have hword : y.input.word? = some y.input.portWord := word?_eq_some_iff.mpr ⟨hv, rfl⟩
    rw [List.filterMap_cons, hword, List.filterMap_nil] at hI
    have hnot : y.input.cmdLast = false := hI _ (List.mem_singleton.mpr rfl)
    obtain ⟨u, hu, hblock⟩ := word_step (.inr hy.ctl) hrst hv hstep
    have hylow : InIllegal s op y.lowered := hy.of_block (lowered_block y)
    rw [commandWord_of_err hylow.ctl (by rw [hylow.err]; decide) hv,
      if_neg (by simp [input_lowered, hnot])] at hu
    obtain rfl := Host.Outcome.next.inj hu
    exact InIllegal.of_block hblock ⟨hylow.ctl, hylow.op, hylow.err, hylow.relay, hylow.seq⟩

/-- An illegal command has been answered. -/
def OpcodeErrorAnswered (s : State) (op : BitVec 4) (z : State) : Prop :=
  z.ctl = .rsp ∧ z.ridx = 0#16 ∧ z.rbuf = errorRsp 1#8 ∧ z.relay = s.relay ∧ z.seq = .idle ∧
    z.op = op ∧ z.err = 1#8

/-- A packet with an illegal header is consumed to its last word and answered with E_OPCODE. -/
theorem deliver_illegal {h : PortWord} {ps : List PortWord} {s : State} {l rest : List Inputs}
    (hs : s.Sound) (hctl : s.ctl = .idle) (hquiet : s.quiet = false)
    (hf : framed (h :: ps) = true) (hdec : ∀ i, decodeHeader h.data h.err ≠ .ok i)
    (hin : s.inputs = l ++ rest) (hd : Delivers (h :: ps) l) :
    ∃ z, RunsThrough l s z ∧ OpcodeErrorAnswered s (headerOpcode h.data) z ∧ SteadyBefore s l := by
  have hseq := seq_idle_of_idle hs hctl
  have hr : noReset l = true := hd.2.1
  obtain ⟨rfl, hlast, I, rfl, hI⟩ | ⟨qs, q, I, m, J, rfl, rfl, hI, hnot, rfl, hqs, hJ, hlast⟩ :=
    hd.cases hf
  · obtain ⟨hv, rfl⟩ := word?_eq_some_iff.mp hI
    have hrst := noReset_singleton.mp hr
    obtain rfl : s.input = I := State.input_cons s I rest hin
    obtain ⟨t, hstep, ht⟩ := exists_runsThrough_step hs hin hrst
    obtain ⟨v, hw, hblock⟩ := word_step (.inl ⟨hctl, hquiet⟩) hrst hv hstep
    have hlast : s.lowered.input.cmdLast = true := hlast
    rw [commandWord_of_illegal_header (s := s.lowered) hctl hdec,
      illegalWord_of_idle (s := s.lowered) hctl, if_pos hlast] at hw
    obtain rfl := Host.Outcome.next.inj hw
    refine ⟨t, ht, ⟨eq_of_block State.ctl hblock, eq_of_block State.ridx hblock,
      eq_of_block State.rbuf hblock, eq_of_block State.relay hblock,
      eq_of_block State.seq hblock hseq,
      eq_of_block State.op hblock, eq_of_block State.err hblock⟩, fun k hk => ?_⟩
    obtain rfl : k = 0 := by simpa using hk
    exact ⟨s, rfl, rfl, hseq⟩
  · obtain ⟨hv, rfl⟩ := word?_eq_some_iff.mp hI
    obtain ⟨hvJ, rfl⟩ := word?_eq_some_iff.mp hJ
    obtain ⟨hrst, hr⟩ := noReset_cons.mp hr
    obtain ⟨hrm, hrJ⟩ := (noReset_append m [J]).mp hr
    have hrJ := noReset_singleton.mp hrJ
    obtain rfl : s.input = I := State.input_cons s I _ hin
    obtain ⟨t, hstep, ht⟩ := exists_runsThrough_step hs hin hrst
    obtain ⟨v, hw, hblock⟩ := word_step (.inl ⟨hctl, hquiet⟩) hrst hv hstep
    have hnot : s.lowered.input.cmdLast = false := hnot
    rw [commandWord_of_illegal_header (s := s.lowered) hctl hdec,
      illegalWord_of_idle (s := s.lowered) hctl, hnot, if_neg Bool.false_ne_true] at hw
    obtain rfl := Host.Outcome.next.inj hw
    have ht0 : KeepsCounting s (headerOpcode s.input.portWord.data) [] t := fun _ =>
      InIllegal.of_block hblock ⟨rfl, rfl, rfl, rfl, hseq⟩
    have hkeeps : ∀ (m : List Inputs) (I : Inputs) (y t : State), y.Sound →
        KeepsCounting s (headerOpcode s.input.portWord.data) m y → y.input = I → I.rst = false →
        step y = .next t → KeepsCounting s (headerOpcode s.input.portWord.data) (m ++ [I]) t :=
      fun _ _ _ _ _ hP hI hrst h => hP.step hI hrst h
    have htin : t.inputs = m ++ (J :: rest) := ht.rest (by simpa using hin)
    obtain ⟨y, hy, hP⟩ := exists_runsThrough hkeeps ht.sound ht0 htin hrm
    have hyc := hP hqs
    obtain rfl : y.input = J := State.input_cons y J rest (hy.rest htin)
    obtain ⟨z, hzstep, hz⟩ := exists_runsThrough_step hy.sound (hy.rest htin) hrJ
    obtain ⟨v, hw, hzblock⟩ := word_step (.inr hyc.ctl) hrJ hvJ hzstep
    have hylow : InIllegal s _ y.lowered :=
      hyc.of_block (lowered_block y)
    have hlast : y.lowered.input.cmdLast = true := hlast
    rw [commandWord_of_err hylow.ctl (by rw [hylow.err]; decide) hvJ, if_pos hlast, hylow.err] at hw
    obtain rfl := Host.Outcome.next.inj hw
    refine ⟨z, ht.append (hy.append hz), ⟨eq_of_block State.ctl hzblock,
      eq_of_block State.ridx hzblock, eq_of_block State.rbuf hzblock,
      eq_of_block State.relay hzblock hylow.relay, eq_of_block State.seq hzblock hylow.seq,
      eq_of_block State.op hzblock hylow.op, eq_of_block State.err hzblock⟩,
      steadyBefore_of_steps hseq hstep fun k hk => ?_⟩
    obtain ⟨x, hx, hPx⟩ := exists_run_take hkeeps ht.sound ht0 htin hrm hk
    have hxc := hPx fun p hp => hqs p ?_
    · exact ⟨x, hx, hxc.relay, hxc.seq⟩
    · exact ((List.take_sublist k m).filterMap _).subset hp

/-- Settles O48: the answer of an illegal command. -/
theorem illegalHeaderAnswersOpcodeError : Obligations.IllegalHeaderAnswersOpcodeError := by
  intro h ps s l rest hs hctl hquiet hf hdec hin hd
  obtain ⟨z, hz, ⟨hzctl, hridx, hrbuf, hrelay, hseq, hop, herr⟩, -⟩ :=
    deliver_illegal hs hctl hquiet hf hdec hin hd
  refine ⟨z, hz.run, hzctl, hridx, ?_, hrelay, hseq, hop, herr⟩
  rw [hrbuf]
  rfl

end Machine

end Sys2Proof

/-! The answers of whole commands, and the step counts (R103 to R112, R119, R122, R152). -/

namespace Sys2Proof

/-- A framed packet whose header and argument words decode to a command of R59 is its packet. -/
theorem encodeCommand_of_decoded {h : PortWord} {ps : List PortWord} {i : Instr} {args : List Arg}
    (hf : framed (h :: ps) = true) (hdec : decodeHeader h.data h.err = .ok i)
    (hargs : decodeArgs i.argClass ps = .ok args) (hshape : Command.shapeOk ⟨i, args⟩ = true) :
    encodeCommand ⟨i, args⟩ = h :: ps := by
  have hcount : i.argClass.countOk args.length = true := (Bool.and_eq_true _ _ ▸ hshape).1
  exact (decodeCommand_eq_ok_iff.mp
    (decodeCommand_eq_ok_iff_parts.mpr ⟨hf, h, ps, rfl, hdec, hargs, hcount⟩)).2

theorem shapeOk_of_wellFormed {n q : Nat} {c : Command} (h : c.wellFormed n q = true) :
    c.shapeOk = true := by
  simp only [Command.wellFormed, Bool.and_eq_true] at h
  exact h.1.1

/-- The packet of a well-formed command, taken apart. -/
theorem encodeCommand_parts {n q : Nat} {c : Command} (h : c.wellFormed n q = true) :
    framed (encodeCommand c) = true ∧ ∃ hd ps, encodeCommand c = hd :: ps ∧
      decodeHeader hd.data hd.err = .ok c.instr ∧ decodeArgs c.instr.argClass ps = .ok c.args := by
  obtain ⟨hf, hd, ps, hps, hdec, hargs, -⟩ := decodeCommand_eq_ok_iff_parts.mp
    (decodingAnEncodedCommandGivesItBack c (shapeOk_of_wellFormed h))
  exact ⟨hf, hd, ps, hps, hdec, hargs⟩

namespace Machine

/-! Well-formed commands -/

/-- A well-formed command is consumed to its last word, and acts on its arguments. -/
theorem deliver_wellFormed {c : Command} {s : State} {l rest : List Inputs} (hs : s.Sound)
    (hctl : s.ctl = .idle) (hquiet : s.quiet = false)
    (hwf : c.wellFormed s.cfg.n s.cfg.qMax = true) (hin : s.inputs = l ++ rest)
    (hd : Delivers (encodeCommand c) l) :
    ∃ u z v, RunsThrough l s z ∧ HoldsArgs c.instr c.args u ∧ u.relay = s.relay ∧ u.seq = .idle ∧
      u.cfg = s.cfg ∧ action c.instr u = .next v ∧ z.block = v.block := by
  obtain ⟨hf, h, ps, hps, hdec, hargs⟩ := encodeCommand_parts hwf
  rw [hps] at hf hd
  obtain ⟨u, z, hz, hgath, hrelay, hseq, hcfg, hfin, -⟩ :=
    deliver_legal hs hctl hquiet hf hdec hin hd
  rw [← hcfg] at hwf
  obtain ⟨v, hv, hblock⟩ := hfin.2 (hgath.finalErr_eq_zero_iff.mpr ⟨c.args, hargs, hwf⟩)
  exact ⟨u, z, v, hz, hgath.holds c.args hargs (wellFormed_iff.mp hwf).1, hrelay, hseq, hcfg, hv,
    hblock⟩

/-- A query answers from the relays and its arguments (R105, R107, R110, R111). -/
theorem action_query {c : Command} {u : State} (hq : c.instr.mutating = false)
    (h : HoldsArgs c.instr c.args u) :
    action c.instr u = .next (u.respond (answer u.cfg u.relay c)) := by
  obtain ⟨i, args⟩ := c
  cases i with
  | opn | cls | opnAll | set | setMbb => cases hq
  | clsQ =>
    have hflags : u.qflags = listFlags u.relay (Command.entries ⟨.clsQ, args⟩) := h.2.2 rfl
    show Host.Outcome.next (u.respond (flagsRsp u.qflags)) = _
    rw [hflags]
    rfl
  | stateQ | getQ | ident => rfl

/-- A well-formed query has been answered. -/
theorem deliver_query {c : Command} {s : State} {l rest : List Inputs} (hs : s.Sound)
    (hctl : s.ctl = .idle) (hquiet : s.quiet = false)
    (hwf : c.wellFormed s.cfg.n s.cfg.qMax = true) (hq : c.instr.mutating = false)
    (hin : s.inputs = l ++ rest) (hd : Delivers (encodeCommand c) l) :
    ∃ z, RunsThrough l s z ∧ z.ctl = .rsp ∧ z.seq = .idle ∧ z.ridx = 0#16 ∧
      z.rbuf = answer s.cfg s.relay c ∧ z.relay = s.relay := by
  obtain ⟨u, z, v, hz, hholds, hrelay, hseq, hcfg, hv, hblock⟩ :=
    deliver_wellFormed hs hctl hquiet hwf hin hd
  rw [action_query hq hholds] at hv
  obtain rfl := Host.Outcome.next.inj hv
  rw [← hrelay, ← hcfg]
  exact ⟨z, hz, eq_of_block State.ctl hblock, eq_of_block State.seq hblock hseq,
    eq_of_block State.ridx hblock, eq_of_block State.rbuf hblock, eq_of_block State.relay hblock⟩

/-- Settles O46: the action of a query is its answer. -/
theorem queryAnswersAtItsLastWord : Obligations.QueryAnswersAtItsLastWord := by
  intro c s l rest hs hctl hquiet hwf hq hin hd
  obtain ⟨z, hz, hanswer⟩ := deliver_query hs hctl hquiet hwf hq hin hd
  exact ⟨z, hz.run, hanswer⟩

/-- The entries of a well-formed command are legal. -/
theorem entries_legal {n q : Nat} {c : Command} (h : c.wellFormed n q = true) :
    ∀ e ∈ c.entries, e.Legal n :=
  (wellFormed_iff.mp h).1.2.2.1

/-- A mutating command starts the sequence that leads to its target in its delay (R103, R104, R106,
R108, R109). -/
theorem action_mutating {c : Command} {u : State} (hm : c.instr.mutating = true)
    (hwf : c.wellFormed u.cfg.n u.cfg.qMax = true) (hcut : u.cfg.cut u.relay = u.relay)
    (h : HoldsArgs c.instr c.args u) :
    ∃ spec, action c.instr u = u.startCmd spec ∧ spec.delay u.cfg = c.delay u.cfg ∧
      spec.target u.cfg u.relay = c.target u.cfg u.relay := by
  have hlegal := cut_unionMask (c := u.cfg) (entries_legal hwf)
  obtain ⟨hmask, hval, -⟩ := h
  obtain ⟨i, args⟩ := c
  cases i with
  | clsQ | stateQ | getQ | ident => cases hm
  | opn =>
    have hmask : u.amask = unionMask (Command.entries ⟨.opn, args⟩) := hmask rfl
    refine ⟨.opn u.amask, rfl, rfl, ?_⟩
    rw [SeqSpec.target, hmask, hlegal]
    rfl
  | cls =>
    have hmask : u.amask = unionMask (Command.entries ⟨.cls, args⟩) := hmask rfl
    refine ⟨.cls u.amask, rfl, rfl, ?_⟩
    rw [SeqSpec.target, hmask, hlegal]
    rfl
  | opnAll =>
    refine ⟨.opn u.cfg.valid, rfl, rfl, ?_⟩
    rw [SeqSpec.target, cut_valid, and_not_valid hcut]
    rfl
  | set =>
    refine ⟨.setBbm u.aval, rfl, rfl, ?_⟩
    rw [SeqSpec.target, hval rfl]
    rfl
  | setMbb =>
    refine ⟨.setMbb u.aval, rfl, rfl, ?_⟩
    rw [SeqSpec.target, hval rfl]
    rfl

/-- A well-formed mutating command has started its sequence. -/
theorem deliver_mutating {c : Command} {s : State} {l rest : List Inputs} (hs : s.Sound)
    (hctl : s.ctl = .idle) (hquiet : s.quiet = false)
    (hwf : c.wellFormed s.cfg.n s.cfg.qMax = true) (hm : c.instr.mutating = true)
    (hin : s.inputs = l ++ rest) (hd : Delivers (encodeCommand c) l) :
    ∃ z spec, RunsThrough l s z ∧ z.ctl = .seq ∧ HoldsSequence spec s.relay z ∧
      spec.delay s.cfg = c.delay s.cfg ∧ spec.target s.cfg s.relay = c.target s.cfg s.relay := by
  obtain ⟨u, z, v, hz, hholds, hrelay, hseq, hcfg, hv, hblock⟩ :=
    deliver_wellFormed hs hctl hquiet hwf hin hd
  have hcut : u.cfg.cut u.relay = u.relay := by
    rw [hcfg, hrelay]
    exact hs.2.2.1.1
  obtain ⟨spec, hact, hdelay, htarget⟩ := action_mutating hm (by rwa [hcfg]) hcut hholds
  rw [hact] at hv
  obtain ⟨-, w, hw, rfl⟩ := startCmd_next hv
  rw [hcfg] at hdelay htarget
  rw [hrelay] at htarget
  have hholds : HoldsSequence spec u.relay z := holdsSequence_of_rbStart hw hblock
  rw [hrelay] at hholds
  exact ⟨z, spec, hz, eq_of_block State.ctl hblock, hholds, hdelay, htarget⟩

/-- Fewer steps than a wait has hold fewer ticks. -/
theorem ticks_take_lt {k j : Nat} {w : List Inputs} (h : Waits k w) (hj : j < w.length) :
    ticks (w.take j) < k := by
  obtain ⟨m, J, rfl, hm, -⟩ := h.exists_last
  have hle : j ≤ m.length := by
    simp at hj
    omega
  have hsplit : ticks m = ticks (m.take j) + ticks (m.drop j) := by
    rw [← ticks_append, List.take_append_drop]
  rw [List.take_append_of_le_length hle]
  omega

/-- Settles O45: the command starts its sequence with its last word, and the sequence ends with its
last tick. -/
theorem mutatingCommandRunsToItsAck : Obligations.MutatingCommandRunsToItsAck := by
  intro c s l w rest hs hctl hquiet hwf hm hin hd hw
  obtain ⟨z, spec, hz, hzctl, hholds, hdelay, htarget⟩ :=
    deliver_mutating hs hctl hquiet hwf hm (by rw [hin, List.append_assoc]) hd
  have hzin : z.inputs = w ++ rest := hz.rest (by rw [hin, List.append_assoc])
  rw [← hz.cfg] at hdelay htarget
  rw [← hz.cfg, ← hdelay] at hw
  refine ⟨fun k hlk hkw => ?_, ?_⟩
  · obtain ⟨j, rfl⟩ := Nat.exists_eq_add_of_le hlk
    have hj : j < w.length := by omega
    have htake : z.inputs = w.take j ++ (w.drop j ++ rest) := by
      rw [hzin, ← List.append_assoc, List.take_append_drop]
    have hr : noReset (w.take j) = true := by
      have hr := hw.2.1
      rw [← List.take_append_drop j w] at hr
      exact ((noReset_append _ _).mp hr).1
    obtain ⟨y, hy, hyctl, -⟩ := sequence_waits hz.sound hholds htake hr (ticks_take_lt hw hj)
    have hrun := (hz.append hy).run
    rw [List.length_append, List.length_take, Nat.min_eq_left hj.le] at hrun
    exact ⟨y, hrun, hyctl.trans hzctl⟩
  · obtain ⟨y, hy, ⟨hseq, hack, -⟩, hrelay⟩ := sequence_ends hz.sound hholds hzin hw
    obtain ⟨hyctl, hrbuf, hridx⟩ := hack hzctl
    have hrun := (hz.append hy).run
    rw [List.length_append] at hrun
    refine ⟨y, hrun, hyctl, hseq, hrbuf, hridx, ?_⟩
    rw [hrelay, htarget, hz.cfg]

/-! Ill-formed packets -/

/-- A packet has been answered with the error `e`. -/
def ErrorAnswered (s : State) (e : BitVec 8) (z : State) : Prop :=
  z.ctl = .rsp ∧ z.ridx = 0#16 ∧ z.rbuf = errorRsp e ∧ z.relay = s.relay ∧ z.seq = .idle ∧
    e ≠ 0#8 ∧ e.toNat ≤ 7

/-- A packet of no well-formed command is consumed to its last word and answered with an error. -/
theorem deliver_illFormed {ps : List PortWord} {s : State} {l rest : List Inputs} (hs : s.Sound)
    (hctl : s.ctl = .idle) (hquiet : s.quiet = false) (hf : framed ps = true)
    (hno : ∀ c : Command, c.wellFormed s.cfg.n s.cfg.qMax = true → encodeCommand c ≠ ps)
    (hin : s.inputs = l ++ rest) (hd : Delivers ps l) :
    ∃ z e, RunsThrough l s z ∧ ErrorAnswered s e z ∧ SteadyBefore s l := by
  cases ps with
  | nil => cases hf
  | cons h ps =>
    by_cases hdec : ∃ i, decodeHeader h.data h.err = .ok i
    · obtain ⟨i, hdec⟩ := hdec
      obtain ⟨u, z, hz, hgath, hrelay, hseq, hcfg, hfin, hsteady⟩ :=
        deliver_legal hs hctl hquiet hf hdec hin hd
      have hne : u.finalErr i.argClass ≠ 0#8 := by
        rw [ne_eq, hgath.finalErr_eq_zero_iff, hcfg]
        rintro ⟨args, hargs, hwf⟩
        exact hno _ hwf (encodeCommand_of_decoded hf hdec hargs (shapeOk_of_wellFormed hwf))
      have hblock := hfin.1 hne
      exact ⟨z, _, hz, ⟨eq_of_block State.ctl hblock, eq_of_block State.ridx hblock,
        eq_of_block State.rbuf hblock, eq_of_block State.relay hblock hrelay,
        eq_of_block State.seq hblock hseq, hne, finalErr_le hgath.known _⟩, hsteady⟩
    · obtain ⟨z, hz, ⟨hzctl, hridx, hrbuf, hrelay, hseq, -, -⟩, hsteady⟩ :=
        deliver_illegal hs hctl hquiet hf (fun i hi => hdec ⟨i, hi⟩) hin hd
      exact ⟨z, 1#8, hz, ⟨hzctl, hridx, hrbuf, hrelay, hseq, by decide, by decide⟩, hsteady⟩

/-- Settles O47: the answer of an ill-formed packet, and the steps before it. -/
theorem illFormedPacketAnswersError : Obligations.IllFormedPacketAnswersError := by
  intro ps s l rest hs hctl hquiet hf hno hin hd
  obtain ⟨z, e, hz, ⟨hzctl, hridx, hrbuf, hrelay, hseq, hne, hle⟩, hsteady⟩ :=
    deliver_illFormed hs hctl hquiet hf hno hin hd
  have hpos : e.toNat ≠ 0 := fun h => hne (BitVec.eq_of_toNat_eq h)
  refine ⟨fun k hk => ?_, z, e.toNat, hz.run, hzctl, hridx, by omega, hle, ?_⟩
  · obtain hk | rfl := Nat.lt_or_eq_of_le hk
    · exact hsteady k hk
    · exact ⟨z, hz.run, hrelay, hseq⟩
  · rw [hrbuf, errorRsp_eq]

/-! Taking a response (R122) -/

/-- The rows of a step in which a response is offered. -/
theorem Row.of_rsp {s u : State} (hagree : s.PathsAgree) (hctl : s.ctl = .rsp) (h : Row s u) :
    (s.input.rspReady = true ∧ u = s.lowered.takeWord) ∨
      (s.input.rspReady = false ∧ u = s.lowered) := by
  have hseq : s.seq = .idle := seq_idle_of_ctl hagree (by simp [hctl]) (by simp [hctl])
  cases h with
  | manual hc =>
    rw [hctl] at hc
    cases hc
  | word hl | noWord hl => simp [State.Listening, hctl] at hl
  | hold hb | count hb | second hb | ack hb | done hb =>
    rw [hseq] at hb
    cases hb
  | take _ hready => exact .inl ⟨hready, rfl⟩
  | offer _ hready => exact .inr ⟨hready, rfl⟩

/-- The words of the response that are still to be taken, each with its `rsp_last`. -/
def wordsLeft (s : State) : List (Word × Bool) :=
  (s.rbuf.zipIdx.drop s.ridx.toNat).map (fun p => (p.1, decide (p.2 + 1 = s.rbuf.length)))

theorem wordsLeft_eq_cons {s : State} (h : s.ridx.toNat < s.rbuf.length) :
    wordsLeft s = (s.rbuf.getD s.ridx.toNat 0#32, decide (s.ridx.toNat + 1 = s.rbuf.length)) ::
      (s.rbuf.zipIdx.drop (s.ridx.toNat + 1)).map
        (fun p => (p.1, decide (p.2 + 1 = s.rbuf.length))) := by
  have hlen : s.ridx.toNat < s.rbuf.zipIdx.length := by simpa using h
  rw [wordsLeft, List.drop_eq_getElem_cons hlen, List.map_cons, List.getElem_zipIdx,
    List.getD_eq_getElem _ _ h]
  simp

theorem takenWord?_of_ready {s : State} (hctl : s.ctl = .rsp) (hrst : s.input.rst = false)
    (hready : s.input.rspReady = true) :
    s.takenWord? =
      some (s.rbuf.getD s.ridx.toNat 0#32, decide (s.ridx.toNat + 1 = s.rbuf.length)) := by
  simp [State.takenWord?, State.outputs, hrst, State.rspValid, hctl, hready, State.rspData,
    State.rspLast, Bool.beq_eq_decide_eq]

theorem takenWord?_of_not_ready {s : State} (hready : s.input.rspReady = false) :
    s.takenWord? = none := by
  simp [State.takenWord?, hready]

theorem takenWords_succ {s t : State} (h : step s = .next t) (k : Nat) :
    takenWords (k + 1) s = s.takenWord?.toList ++ takenWords k t := by
  rw [takenWords, h]

theorem readies_cons (I : Inputs) (l : List Inputs) :
    readies (I :: l) = (if I.rspReady then 1 else 0) + readies l := by
  cases h : I.rspReady <;> simp [readies, h, Nat.add_comm]

/-- Where the last step of a list is ready, the list has a ready step. -/
theorem readies_pos {l : List Inputs} {J : Inputs} (h : l.getLast? = some J)
    (hJ : J.rspReady = true) : 1 ≤ readies l := by
  obtain ⟨m, rfl⟩ := eq_append_of_getLast? h
  simp [readies, hJ]

/-- The response has been taken whole, and the block is idle. -/
def ResponseTaken (s z : State) : Prop :=
  z.ctl = .idle ∧ z.rbuf = [] ∧ z.ridx = 0#16 ∧ z.relay = s.relay

/-- As many ready steps as there are words left take them all, in order. -/
theorem response_taken {l : List Inputs} {s : State} {rest : List Inputs} (hs : s.Sound)
    (hctl : s.ctl = .rsp) (hin : s.inputs = l ++ rest) (hr : noReset l = true)
    (hcount : s.ridx.toNat + readies l = s.rbuf.length)
    (hlast : ∃ J, l.getLast? = some J ∧ J.rspReady = true) :
    takenWords l.length s = wordsLeft s ∧ ∃ z, RunsThrough l s z ∧ ResponseTaken s z := by
  induction l generalizing s with
  | nil =>
    obtain ⟨J, hJ, -⟩ := hlast
    cases hJ
  | cons I l ih =>
    obtain ⟨hrst, hrl⟩ := noReset_cons.mp hr
    obtain rfl : s.input = I := State.input_cons s I _ hin
    obtain ⟨t, hstep, ht⟩ := exists_runsThrough_step hs hin hrst
    have htin : t.inputs = l ++ rest := ht.rest hin
    have hlt : s.ridx.toNat < s.rbuf.length := (hs.2.1.2.2.1 hctl).2.2
    have hlast' : l ≠ [] → ∃ J, l.getLast? = some J ∧ J.rspReady = true := by
      rintro hne
      rwa [← List.singleton_append, List.getLast?_append_of_ne_nil _ hne] at hlast
    rw [readies_cons] at hcount
    obtain ⟨-, ⟨hagree, -⟩, u, a, hrow, htu⟩ := step_row hstep hrst
    have hend : t.block = u.block := by
      rw [htu]
      exact endStep_block s a u
    rw [List.length_cons, takenWords_succ hstep]
    obtain ⟨hready, rfl⟩ | ⟨hready, rfl⟩ := hrow.of_rsp hagree hctl
    · rw [takenWord?_of_ready hctl hrst hready, wordsLeft_eq_cons hlt]
      rw [if_pos hready] at hcount
      obtain ⟨hfin, htake⟩ | ⟨hmore, htake, hnat⟩ := takeWord_cases hs.lowered hctl
      · have hfin : s.ridx.toNat + 1 = s.rbuf.length := hfin
        have hnil : l = [] := by
          by_contra hne
          obtain ⟨J, hJ, hJr⟩ := hlast' hne
          have := readies_pos hJ hJr
          omega
        subst hnil
        rw [htake] at hend
        refine ⟨?_, _, ht, eq_of_block State.ctl hend, eq_of_block State.rbuf hend,
          eq_of_block State.ridx hend, eq_of_block State.relay hend⟩
        rw [List.drop_eq_nil_of_le (by simp [hfin])]
        rfl
      · have hmore : s.ridx.toNat + 1 < s.rbuf.length := hmore
        have hne : l ≠ [] := by
          rintro rfl
          simp [readies] at hcount
          omega
        rw [htake] at hend
        have htr : t.ridx.toNat = s.ridx.toNat + 1 := by
          rw [eq_of_block State.ridx hend]
          exact hnat
        have htb : t.rbuf = s.rbuf := eq_of_block State.rbuf hend
        obtain ⟨hwords, z, hz, hzc, hzb, hzi, hzr⟩ := ih ht.sound (eq_of_block State.ctl hend hctl)
          htin hrl (by rw [htr, htb]; omega) (hlast' hne)
        rw [hwords, wordsLeft, htr, htb]
        exact ⟨rfl, z, ht.append hz, hzc, hzb, hzi, hzr.trans (eq_of_block State.relay hend)⟩
    · have hne : l ≠ [] := by
        rintro rfl
        obtain ⟨J, hJ, hJr⟩ := hlast
        obtain rfl : s.input = J := Option.some.inj hJ
        rw [hready] at hJr
        cases hJr
      have htr : t.ridx = s.ridx := eq_of_block State.ridx hend
      have htb : t.rbuf = s.rbuf := eq_of_block State.rbuf hend
      rw [hready, if_neg Bool.false_ne_true, Nat.zero_add] at hcount
      obtain ⟨hwords, z, hz, hzc, hzb, hzi, hzr⟩ := ih ht.sound (eq_of_block State.ctl hend hctl)
        htin hrl (by rw [htr, htb]; exact hcount) (hlast' hne)
      rw [takenWord?_of_not_ready hready, hwords, wordsLeft, htr, htb]
      exact ⟨rfl, z, ht.append hz, hzc, hzb, hzi, hzr.trans (eq_of_block State.relay hend)⟩

/-- Settles O49: from its first word on, every word of the response is left to be taken. -/
theorem responseIsTakenInOrder : Obligations.ResponseIsTakenInOrder := by
  intro s l rest hs hctl hridx hin hr hcount hlast
  obtain ⟨hwords, z, hz, htaken⟩ :=
    response_taken hs hctl hin hr (by simpa [hridx] using hcount) hlast
  refine ⟨?_, z, hz.run, htaken⟩
  rw [hwords, wordsLeft, hridx]
  rfl

/-! The step counts (R152) -/

/-- A step of R152 with a word of the packet. -/
def wordBeat (p : PortWord) : Inputs :=
  { tickBeat with cmdValid := true, cmdData := p.data, cmdLast := p.last, cmdErr := p.err }

theorem backToBack_eq (ps : List PortWord) (m : Nat) :
    backToBack ps m = ps.map wordBeat ++ List.replicate m tickBeat := rfl

theorem word?_wordBeat (p : PortWord) : (wordBeat p).word? = some p := rfl

theorem filterMap_word?_wordBeat (ps : List PortWord) :
    (ps.map wordBeat).filterMap Inputs.word? = ps := by
  induction ps with
  | nil => rfl
  | cons p ps ih => rw [List.map_cons, List.filterMap_cons, word?_wordBeat, ih]

/-- The words of a packet back to back deliver it. -/
theorem delivers_wordBeat {ps : List PortWord} (hf : framed ps = true) :
    Delivers ps (ps.map wordBeat) := by
  have hne : ps ≠ [] := by
    rintro rfl
    cases hf
  refine ⟨filterMap_word?_wordBeat ps, ?_, ?_, ?_⟩
  · simp [noReset, wordBeat, tickBeat]
  · refine ⟨wordBeat (ps.head hne), ?_, rfl⟩
    rw [List.head?_map, List.head?_eq_some_head hne]
    rfl
  · refine ⟨wordBeat (ps.getLast hne), ?_, rfl⟩
    rw [List.getLast?_map, List.getLast?_eq_some_getLast hne]
    rfl

theorem noReset_beats (k : Nat) : noReset (List.replicate k tickBeat) = true := by
  simp [noReset, tickBeat]

theorem readies_beats (k : Nat) : readies (List.replicate k tickBeat) = k := by
  simp [readies, tickBeat]

theorem getLast?_beats {k : Nat} (hk : 1 ≤ k) :
    (List.replicate k tickBeat).getLast? = some tickBeat := by
  rw [List.getLast?_replicate, if_neg (by omega)]

theorem waits_beats {k : Nat} (hk : 1 ≤ k) : Waits k (List.replicate k tickBeat) :=
  ⟨by simp [ticks, tickBeat], noReset_beats k, tickBeat, getLast?_beats hk, rfl⟩

theorem beats_split {k m : Nat} (h : k ≤ m) (rest : List Inputs) :
    List.replicate m tickBeat ++ rest =
      List.replicate k tickBeat ++ (List.replicate (m - k) tickBeat ++ rest) := by
  rw [← List.append_assoc, List.replicate_append_replicate, Nat.add_sub_cancel' h]

/-- A response is taken in as many steps as it has words. -/
theorem response_beats {s : State} {k m : Nat} {rest : List Inputs} (hs : s.Sound)
    (hctl : s.ctl = .rsp) (hridx : s.ridx = 0#16) (hk : s.rbuf.length = k) (hkm : k ≤ m)
    (hin : s.inputs = List.replicate m tickBeat ++ rest) :
    ∃ z, RunsThrough (List.replicate k tickBeat) s z ∧ z.ctl = .idle := by
  have hpos : 1 ≤ k := hk ▸ (hs.2.1.2.2.1 hctl).1
  rw [beats_split hkm] at hin
  obtain ⟨-, z, hz, hzctl, -⟩ := response_taken hs hctl hin (noReset_beats k)
    (by simp [hridx, readies_beats, hk]) ⟨tickBeat, getLast?_beats hpos, rfl⟩
  exact ⟨z, hz, hzctl⟩

/-- A run with its length written out. -/
theorem RunsThrough.run_eq {l : List Inputs} {s z : State} (h : RunsThrough l s z) {k : Nat}
    (hk : l.length = k) : Machine.run k s = .next z :=
  hk ▸ h.run

theorem delay_pos {c : Command} {cfg : Config} (hl : cfg.Legal) (hm : c.instr.mutating = true) :
    1 ≤ c.delay cfg := by
  obtain ⟨-, -, ⟨hop, -⟩, ⟨hrel, -⟩, -⟩ := hl
  obtain ⟨i, args⟩ := c
  cases i with
  | clsQ | stateQ | getQ | ident => cases hm
  | opn | opnAll => exact hrel
  | cls => exact hop
  | set => exact hrel.trans (Nat.le_add_right ..)
  | setMbb => exact hop.trans (Nat.le_add_right ..)

/-- Settles O50: the words of the packet, the ticks of the sequence and the words of the response
take one step each. -/
theorem stepCounts : Obligations.StepCounts := by
  intro ps s m rest hs hctl hacc hf hin
  rw [backToBack_eq, List.append_assoc] at hin
  have hquiet : s.quiet = false := by simp [State.quiet, hacc]
  have hd := delivers_wordBeat hf
  refine ⟨fun hno hm => ?_, fun c hwf hps => ⟨fun hq hm => ?_, fun hmut hm => ?_⟩⟩
  · obtain ⟨z, e, hz, ⟨hzctl, hridx, hrbuf, -⟩, -⟩ :=
      deliver_illFormed hs hctl hquiet hf hno hin hd
    obtain ⟨y, hy, hyctl⟩ :=
      response_beats hz.sound hzctl hridx (k := 1) (by rw [hrbuf]; rfl) hm (hz.rest hin)
    exact ⟨⟨z, hz.run_eq (by simp), hzctl⟩, y, (hz.append hy).run_eq (by simp), hyctl⟩
  · rw [← hps] at hd
    obtain ⟨z, hz, hzctl, -, hridx, hrbuf, -⟩ := deliver_query hs hctl hquiet hwf hq (hps ▸ hin) hd
    obtain ⟨y, hy, hyctl⟩ := response_beats hz.sound hzctl hridx
      (k := (answer s.cfg s.relay c).length) (by rw [hrbuf]) hm (hz.rest (hps ▸ hin))
    exact ⟨⟨z, hz.run_eq (by simp [hps]), hzctl⟩, y, (hz.append hy).run_eq (by simp [hps]), hyctl⟩
  · rw [← hps] at hd
    obtain ⟨z, spec, hz, hzctl, hholds, hdelay, -⟩ :=
      deliver_mutating hs hctl hquiet hwf hmut (hps ▸ hin) hd
    have hzin : z.inputs = List.replicate m tickBeat ++ rest := hz.rest (hps ▸ hin)
    have hpos := delay_pos hs.1 hmut
    rw [beats_split (by omega : c.delay s.cfg ≤ m)] at hzin
    obtain ⟨y, hy, ⟨-, hack, -⟩, -⟩ := sequence_ends hz.sound hholds hzin
      (by rw [hz.cfg, hdelay]; exact waits_beats hpos)
    obtain ⟨hyctl, hrbuf, hridx⟩ := hack hzctl
    obtain ⟨x, hx, hxctl⟩ := response_beats hy.sound hyctl hridx (k := 1) (by rw [hrbuf]; rfl)
      (by omega) (hy.rest hzin)
    exact ⟨⟨y, (hz.append hy).run_eq (by simp [hps]), hyctl⟩, x,
      ((hz.append hy).append hx).run_eq (by simp [hps, Nat.add_assoc]), hxctl⟩

end Machine

end Sys2Proof
